-- ==== Sys2Proof/Word.lean ====
section
/-! DEFINITION. The byte, the one unit every buffer of the block is made of (20_memory.md R51). -/

namespace Sys2Proof

/-- A byte: 8 bits, bit 7 the most significant (00_scope.md R10). -/
abbrev Byte := BitVec 8

end Sys2Proof
end

