-- ==== Sys2Proof/Config.lean ====
section
/-! DEFINITION. What a build of the block fixes: the constants of 00_scope.md R7, and the opcode
values, which are parameters (R8, 30_encoding.md R81). -/

namespace Sys2Proof

/-! ## The fixed sizes and bytes of 00_scope.md R7 -/

abbrev FRAME_CAP : Nat := 258
abbrev PAYLOAD_CAP : Nat := 249
abbrev ACC_CAP : Nat := 249
abbrev LEN_MIN : Nat := 6
abbrev LEN_MAX : Nat := 255
abbrev HDR_AFTER_LEN : Nat := 6
abbrev PAYLOAD_OFF : Nat := 9
abbrev MARKER0 : Byte := 0x22
abbrev MARKER1 : Byte := 0x69
abbrev PAGE_SIZE : Nat := 128

/-- The epoch reference 2000-01-01T11:58:55.816Z as POSIX seconds (41_reply_generator.md R158). -/
abbrev EPOCH_S : Nat := 946727935

/-- The epoch reference's nanoseconds (41_reply_generator.md R158). -/
abbrev EPOCH_NS_FRAC : Nat := 816000000

/-- Nanoseconds in a second; `clk_ns` stays below it (30_encoding.md R88). -/
abbrev NANOS : Nat := 1000000000

/-- The longest data WRITE_EXT carries: `0x0b + n` must fit the length byte (42_command_builder.md R178). -/
abbrev WRITE_EXT_CAP : Nat := 244

/-! ## The twenty opcodes -/

/-- The twenty opcodes by name (30_encoding.md R80). -/
inductive OpName where
  | ack | nack | debug | data | writeExt | eraseSectorExt | readExt
  | blAck | blNack | blPing | blErase | blWritePage | blWritePageAddr32 | blJump
  | power | getTelem | getTime | reboot | setTime | telem
deriving DecidableEq, Repr

/-- Every opcode once; NACK first, because its value alone is fixed. -/
def OpName.all : List OpName :=
  [.nack, .ack, .debug, .data, .writeExt, .eraseSectorExt, .readExt, .blAck, .blNack, .blPing,
   .blErase, .blWritePage, .blWritePageAddr32, .blJump, .power, .getTelem, .getTime, .reboot,
   .setTime, .telem]

/-- An assignment of values to the nineteen open opcodes (00_scope.md R8). NACK has no field: its
value is the source's. -/
structure OpcodeMap where
  ack : Byte
  debug : Byte
  data : Byte
  writeExt : Byte
  eraseSectorExt : Byte
  readExt : Byte
  blAck : Byte
  blNack : Byte
  blPing : Byte
  blErase : Byte
  blWritePage : Byte
  blWritePageAddr32 : Byte
  blJump : Byte
  power : Byte
  getTelem : Byte
  getTime : Byte
  reboot : Byte
  setTime : Byte
  telem : Byte
deriving DecidableEq, Repr, Inhabited

/-- The value of an opcode under an assignment; `OP_NACK = 0xff` always (30_encoding.md R81). -/
def OpcodeMap.valueOf (m : OpcodeMap) : OpName → Byte
  | .ack => m.ack
  | .nack => 0xff
  | .debug => m.debug
  | .data => m.data
  | .writeExt => m.writeExt
  | .eraseSectorExt => m.eraseSectorExt
  | .readExt => m.readExt
  | .blAck => m.blAck
  | .blNack => m.blNack
  | .blPing => m.blPing
  | .blErase => m.blErase
  | .blWritePage => m.blWritePage
  | .blWritePageAddr32 => m.blWritePageAddr32
  | .blJump => m.blJump
  | .power => m.power
  | .getTelem => m.getTelem
  | .getTime => m.getTime
  | .reboot => m.reboot
  | .setTime => m.setTime
  | .telem => m.telem

/-- All twenty values are pairwise distinct (30_encoding.md R81). -/
abbrev OpcodeMap.wf (m : OpcodeMap) : Prop := (OpName.all.map m.valueOf).Nodup

/-- The concrete assignment 93_implementation_defined.md I1 offers for tests. It is not normative:
the model's tests use it, and nothing else rests on its values. -/
def OpcodeMap.testInstance : OpcodeMap where
  blPing := 0x00
  blAck := 0x01
  blWritePage := 0x02
  blJump := 0x0b
  blErase := 0x0c
  blNack := 0x0f
  ack := 0x10
  debug := 0x11
  reboot := 0x12
  getTime := 0x13
  setTime := 0x14
  data := 0x16
  getTelem := 0x17
  telem := 0x18
  writeExt := 0x20
  eraseSectorExt := 0x21
  readExt := 0x23
  blWritePageAddr32 := 0x03
  power := 0x30

/-- The build's assignment before R81's constraint: unknown, no body (00_scope.md R8, log entry 1). -/
opaque Config.opcodeChoice : OpcodeMap

/-- The build's opcode assignment: the unknown choice where it obeys R81. A choice that breaks R81 is
no build of this hardware, and the I1 test assignment stands in for it so that R81 holds always
(log entry 1). -/
def Config.opcodes : OpcodeMap :=
  if Config.opcodeChoice.wf then Config.opcodeChoice else OpcodeMap.testInstance

end Sys2Proof
end

