-- ==== Sys2Proof/Syntax.lean ====
section
/-! DEFINITION. The instructions: one constructor per row of spec/opcode_table.json. Twenty are TAB
frames (30_encoding.md R70, R80), eighteen are host operations (R90). -/

namespace Sys2Proof

/-- An inbound TAB frame less its fixed markers and its opcode (30_encoding.md R70). -/
structure Frame where
  /-- The length byte L at offset 2. -/
  length : Byte
  /-- Offsets 3 and 4, little-endian. -/
  hwId : BitVec 16
  /-- Offsets 5 and 6, little-endian. -/
  msgId : BitVec 16
  /-- Offset 7: source node in bits 7:4, destination node in bits 3:0. -/
  route : Byte
  /-- Offsets 9 to L + 2. -/
  payload : List Byte
deriving DecidableEq, Repr

/-- The CLOCK operand: POSIX seconds, and nanoseconds below 10^9 (30_encoding.md R88). -/
structure Clock where
  sec : BitVec 64
  ns : Fin NANOS
deriving DecidableEq, Repr

/-- The TIME_DRAW operand: 8 free bytes (00_scope.md R9). -/
abbrev TimeDraw := Vector Byte 8

/-- The instructions. A TAB opcode's operands are the inbound frame and whichever of APPLY, CLOCK and
TIME_DRAW its rule reads (41_reply_generator.md R130, log entry 5). -/
inductive Instr where
  | ack (f : Frame)
  | nack (f : Frame)
  | debug (f : Frame)
  | data (f : Frame) (apply : Bool)
  | writeExt (f : Frame)
  | eraseSectorExt (f : Frame)
  | readExt (f : Frame)
  | blAck (f : Frame)
  | blNack (f : Frame)
  | blPing (f : Frame)
  | blErase (f : Frame)
  | blWritePage (f : Frame)
  | blWritePageAddr32 (f : Frame)
  | blJump (f : Frame)
  | power (f : Frame)
  | getTelem (f : Frame)
  | getTime (f : Frame) (clock : Clock) (draw : TimeDraw)
  | reboot (f : Frame)
  | setTime (f : Frame)
  | telem (f : Frame)
  | feed (b : Byte)
  | rxClear
  | rxQuery
  | replyGen (apply : Bool) (clock : Clock) (draw : TimeDraw)
  | replyTake
  | buildNew (opcode : Byte) (hwId msgId : BitVec 16) (src dst : BitVec 4)
  | buildDebug (text : List Byte)
  | buildData (data : List Byte)
  | buildWriteExt (address : BitVec 32) (data : List Byte) (flashId : Byte)
  | buildEraseSectorExt (address : BitVec 32) (flashId : Byte)
  | buildReadExt (address : BitVec 32) (dataLength flashId : Byte)
  | buildWritePage (pageNumber : Byte) (pageData : List Byte)
  | buildWritePageAddr32 (address : BitVec 32) (pageData : List Byte)
  | buildPower (mode : Byte)
  | buildSetTime (seconds nanoseconds : BitVec 32)
  | buildByteCount
  | buildClear
  | describe (frame : Vector Byte FRAME_CAP)
deriving DecidableEq, Repr

end Sys2Proof
end

