-- ==== Sys2Proof/WellFormed.lean ====
section
/-! DEFINITION. Which instructions are well formed. Operand widths and ranges are in the types
(30_encoding.md R88); what is left to check is a frame's length byte against its payload. -/

namespace Sys2Proof

/-- A frame is legal when L is 6 to 255 and counts its payload (30_encoding.md R71, R73). -/
abbrev Frame.wf (f : Frame) : Prop :=
  LEN_MIN ≤ f.length.toNat ∧ f.payload.length = f.length.toNat - HDR_AFTER_LEN

/-- The opcode name and the inbound frame of a TAB instruction; none for a host operation. -/
def Instr.frame? : Instr → Option (OpName × Frame)
  | .ack f => some (.ack, f)
  | .nack f => some (.nack, f)
  | .debug f => some (.debug, f)
  | .data f _ => some (.data, f)
  | .writeExt f => some (.writeExt, f)
  | .eraseSectorExt f => some (.eraseSectorExt, f)
  | .readExt f => some (.readExt, f)
  | .blAck f => some (.blAck, f)
  | .blNack f => some (.blNack, f)
  | .blPing f => some (.blPing, f)
  | .blErase f => some (.blErase, f)
  | .blWritePage f => some (.blWritePage, f)
  | .blWritePageAddr32 f => some (.blWritePageAddr32, f)
  | .blJump f => some (.blJump, f)
  | .power f => some (.power, f)
  | .getTelem f => some (.getTelem, f)
  | .getTime f _ _ => some (.getTime, f)
  | .reboot f => some (.reboot, f)
  | .setTime f => some (.setTime, f)
  | .telem f => some (.telem, f)
  | .feed _ => none
  | .rxClear => none
  | .rxQuery => none
  | .replyGen _ _ _ => none
  | .replyTake => none
  | .buildNew _ _ _ _ _ => none
  | .buildDebug _ => none
  | .buildData _ => none
  | .buildWriteExt _ _ _ => none
  | .buildEraseSectorExt _ _ => none
  | .buildReadExt _ _ _ => none
  | .buildWritePage _ _ => none
  | .buildWritePageAddr32 _ _ => none
  | .buildPower _ => none
  | .buildSetTime _ _ => none
  | .buildByteCount => none
  | .buildClear => none
  | .describe _ => none

/-- An instruction is well formed when its inbound frame, if it has one, is legal. A byte string's
length is no condition: each setter checks it and answers a status (70_reset_and_hazards.md R284). -/
def Instr.wf (i : Instr) : Bool :=
  match i.frame? with
  | some (_, f) => decide f.wf
  | none => true

end Sys2Proof
end

