-- ==== Sys2Proof/Decode.lean ====
section
/-! DEFINITION. Decoding, and after it encoding, in the two encodings of 30_encoding.md: TAB frames
(R70, R80) and host operations (R90). A host operation is a list of bytes: the selector, then its
operands in R90's order, numbers little-endian, byte strings as they are (log entry 3). -/

namespace Sys2Proof

/-! ## Bytes of numbers, and numbers from bytes

A weight stands before the byte it weighs, so that no reduction ever unrolls a product by its weight. -/

/-- Bits `8k+7:8k` of a value. -/
def byteOf {w : Nat} (v : BitVec w) (k : Nat) : Byte := BitVec.ofNat 8 (v.toNat / 256 ^ k)

/-- A 16-bit number from its low byte and its high byte (20_memory.md R52). -/
def num16 (lo hi : Byte) : BitVec 16 := BitVec.ofNat 16 (lo.toNat + 256 * hi.toNat)

/-- A 32-bit number from its bytes, least significant first (20_memory.md R54). -/
def num32 (b0 b1 b2 b3 : Byte) : BitVec 32 :=
  BitVec.ofNat 32 (b0.toNat + 2 ^ 8 * b1.toNat + 2 ^ 16 * b2.toNat + 2 ^ 24 * b3.toNat)

/-- A 64-bit number from its two 32-bit halves, the low one first. -/
def num64 (lo hi : BitVec 32) : BitVec 64 := BitVec.ofNat 64 (lo.toNat + 2 ^ 32 * hi.toNat)

/-- The bytes of a 16-bit number, low byte first (20_memory.md R52). -/
def bytesLE16 (v : BitVec 16) : List Byte := [byteOf v 0, byteOf v 1]

/-- The bytes of a 32-bit number, low byte first (20_memory.md R54). -/
def bytesLE32 (v : BitVec 32) : List Byte := [byteOf v 0, byteOf v 1, byteOf v 2, byteOf v 3]

/-- The bytes of a 32-bit number, high byte first (20_memory.md R53). -/
def bytesBE32 (v : BitVec 32) : List Byte := [byteOf v 3, byteOf v 2, byteOf v 1, byteOf v 0]

/-- The bytes of a 64-bit number, low byte first: the clock's seconds in a host operation (log entry 3). -/
def bytesLE64 (v : BitVec 64) : List Byte :=
  [byteOf v 0, byteOf v 1, byteOf v 2, byteOf v 3, byteOf v 4, byteOf v 5, byteOf v 6, byteOf v 7]

/-! ## Opcodes -/

/-- The name of the opcode whose value is `b`, none where `b` is unassigned (30_encoding.md R82,
43_frame_decoder.md R211). -/
def OpcodeMap.nameOf (m : OpcodeMap) (b : Byte) : Option OpName :=
  OpName.all.find? (fun n => m.valueOf n == b)

/-! ## Decoding -/

/-- Why bytes are no instruction. -/
inductive DecodeError where
  /-- A host operation of no bytes at all (log entry 3). -/
  | emptyOperation
  /-- A selector that selects no operation: 0x00, 0x13 to 0x1F (30_encoding.md R91), or a byte above
  the five selector bits. -/
  | reservedSelector (selector : Byte)
  /-- The bytes after the selector are too few or too many for its operands (log entry 3). -/
  | operandShape
  /-- An operand outside its width or range (60_exceptions.md R257, 70_reset_and_hazards.md R284). -/
  | operandOutOfRange
  /-- A frame that does not begin `22 69` (30_encoding.md R70). -/
  | badMarker
  /-- A length byte below 6 (30_encoding.md R71). -/
  | badLength
  /-- A frame that is not L + 3 bytes long (30_encoding.md R72). -/
  | badByteCount
  /-- An opcode byte that is none of the twenty (30_encoding.md R82). -/
  | unassignedOpcode
deriving DecidableEq, Repr

/-- The TAB instruction of an opcode: the inbound frame, with the REPLY_GEN operands that opcode's
rule reads (41_reply_generator.md R130, R138, R151). -/
def Instr.ofFrame (n : OpName) (f : Frame) (apply : Bool) (clock : Clock) (draw : TimeDraw) : Instr :=
  match n with
  | .ack => .ack f
  | .nack => .nack f
  | .debug => .debug f
  | .data => .data f apply
  | .writeExt => .writeExt f
  | .eraseSectorExt => .eraseSectorExt f
  | .readExt => .readExt f
  | .blAck => .blAck f
  | .blNack => .blNack f
  | .blPing => .blPing f
  | .blErase => .blErase f
  | .blWritePage => .blWritePage f
  | .blWritePageAddr32 => .blWritePageAddr32 f
  | .blJump => .blJump f
  | .power => .power f
  | .getTelem => .getTelem f
  | .getTime => .getTime f clock draw
  | .reboot => .reboot f
  | .setTime => .setTime f
  | .telem => .telem f

/-- Decode a whole TAB frame (30_encoding.md R70 to R74, R80). APPLY, CLOCK and TIME_DRAW are no part
of a frame: they come with the REPLY_GEN that meets it. -/
def decodeFrame (m : OpcodeMap) (apply : Bool) (clock : Clock) (draw : TimeDraw) :
    List Byte → Except DecodeError Instr
  | m0 :: m1 :: l :: h0 :: h1 :: g0 :: g1 :: r :: op :: payload =>
    if m0 ≠ MARKER0 ∨ m1 ≠ MARKER1 then .error .badMarker
    else if l.toNat < LEN_MIN then .error .badLength
    else if payload.length ≠ l.toNat - HDR_AFTER_LEN then .error .badByteCount
    else
      match m.nameOf op with
      | none => .error .unassignedOpcode
      | some n => .ok (Instr.ofFrame n
          { length := l, hwId := num16 h0 h1, msgId := num16 g0 g1, route := r, payload := payload }
          apply clock draw)
  | _ => .error .badByteCount

/-- A 4-bit operand from its byte; a byte above 15 is outside the operand's width (30_encoding.md R88). -/
def nibbleOperand (b : Byte) : Except DecodeError (BitVec 4) :=
  if b.toNat < 16 then .ok (BitVec.ofNat 4 b.toNat) else .error .operandOutOfRange

/-- A 1-bit operand from its byte. -/
def bitOperand (b : Byte) : Except DecodeError Bool :=
  if b = 0 then .ok false else if b = 1 then .ok true else .error .operandOutOfRange

/-- The CLOCK operand's nanoseconds; 10^9 or more is refused (60_exceptions.md R257). -/
def nanosOperand (v : BitVec 32) : Except DecodeError (Fin NANOS) :=
  if h : v.toNat < NANOS then .ok ⟨v.toNat, h⟩ else .error .operandOutOfRange

/-- The operands of REPLY_GEN: APPLY, CLOCK (8 bytes of seconds, 4 of nanoseconds), TIME_DRAW. -/
def decodeReplyGen : List Byte → Except DecodeError Instr
  | [ap, s0, s1, s2, s3, s4, s5, s6, s7, n0, n1, n2, n3, d0, d1, d2, d3, d4, d5, d6, d7] =>
    match bitOperand ap, nanosOperand (num32 n0 n1 n2 n3) with
    | .ok apply, .ok ns =>
      .ok (.replyGen apply { sec := num64 (num32 s0 s1 s2 s3) (num32 s4 s5 s6 s7), ns := ns }
        #v[d0, d1, d2, d3, d4, d5, d6, d7])
    | _, _ => .error .operandOutOfRange
  | _ => .error .operandShape

/-- The operands of BUILD_NEW: opcode, hw_id, msg_id, src, dst. -/
def decodeBuildNew : List Byte → Except DecodeError Instr
  | [op, h0, h1, g0, g1, src, dst] =>
    match nibbleOperand src, nibbleOperand dst with
    | .ok s, .ok d => .ok (.buildNew op (num16 h0 h1) (num16 g0 g1) s d)
    | _, _ => .error .operandOutOfRange
  | _ => .error .operandShape

/-- The operands of BUILD_WRITE_EXT: address, data, flash_id. The data is whatever stands between the
four address bytes and the last byte. -/
def decodeBuildWriteExt : List Byte → Except DecodeError Instr
  | a0 :: a1 :: a2 :: a3 :: rest =>
    match rest.getLast? with
    | some flashId => .ok (.buildWriteExt (num32 a0 a1 a2 a3) rest.dropLast flashId)
    | none => .error .operandShape
  | _ => .error .operandShape

/-- The operand of DESCRIBE: exactly 258 bytes, or the operation is refused (60_exceptions.md R257). -/
def decodeDescribe (bs : List Byte) : Except DecodeError Instr :=
  if h : bs.length = FRAME_CAP then .ok (.describe ⟨bs.toArray, by simpa using h⟩)
  else .error .operandOutOfRange

/-- The operand of FEED: one byte. -/
def decodeFeed : List Byte → Except DecodeError Instr
  | [b] => .ok (.feed b)
  | _ => .error .operandShape

/-- An operation without operands. -/
def decodePlain (i : Instr) : List Byte → Except DecodeError Instr
  | [] => .ok i
  | _ => .error .operandShape

/-- The operands of BUILD_ERASE_SECTOR_EXT: address, flash_id. -/
def decodeBuildEraseSectorExt : List Byte → Except DecodeError Instr
  | [a0, a1, a2, a3, flashId] => .ok (.buildEraseSectorExt (num32 a0 a1 a2 a3) flashId)
  | _ => .error .operandShape

/-- The operands of BUILD_READ_EXT: address, data_length, flash_id. -/
def decodeBuildReadExt : List Byte → Except DecodeError Instr
  | [a0, a1, a2, a3, len, flashId] => .ok (.buildReadExt (num32 a0 a1 a2 a3) len flashId)
  | _ => .error .operandShape

/-- The operands of BUILD_WRITE_PAGE: page_number, page_data. -/
def decodeBuildWritePage : List Byte → Except DecodeError Instr
  | page :: pageData => .ok (.buildWritePage page pageData)
  | _ => .error .operandShape

/-- The operands of BUILD_WRITE_PAGE_ADDR32: address, page_data. -/
def decodeBuildWritePageAddr32 : List Byte → Except DecodeError Instr
  | a0 :: a1 :: a2 :: a3 :: pageData => .ok (.buildWritePageAddr32 (num32 a0 a1 a2 a3) pageData)
  | _ => .error .operandShape

/-- The operand of BUILD_POWER: a mode byte. -/
def decodeBuildPower : List Byte → Except DecodeError Instr
  | [mode] => .ok (.buildPower mode)
  | _ => .error .operandShape

/-- The operands of BUILD_SET_TIME: seconds, nanoseconds. -/
def decodeBuildSetTime : List Byte → Except DecodeError Instr
  | [s0, s1, s2, s3, n0, n1, n2, n3] =>
    .ok (.buildSetTime (num32 s0 s1 s2 s3) (num32 n0 n1 n2 n3))
  | _ => .error .operandShape

/-- Decode a host operation by its selector (30_encoding.md R90); every other selector is refused
(R91). -/
def decodeOp : List Byte → Except DecodeError Instr
  | [] => .error .emptyOperation
  | selector :: ops =>
    match selector.toNat with
    | 0x01 => decodeFeed ops
    | 0x02 => decodePlain .rxClear ops
    | 0x03 => decodePlain .rxQuery ops
    | 0x04 => decodeReplyGen ops
    | 0x05 => decodePlain .replyTake ops
    | 0x06 => decodeBuildNew ops
    | 0x07 => .ok (.buildDebug ops)
    | 0x08 => .ok (.buildData ops)
    | 0x09 => decodeBuildWriteExt ops
    | 0x0A => decodeBuildEraseSectorExt ops
    | 0x0B => decodeBuildReadExt ops
    | 0x0C => decodeBuildWritePage ops
    | 0x0D => decodeBuildWritePageAddr32 ops
    | 0x0E => decodeBuildPower ops
    | 0x0F => decodeBuildSetTime ops
    | 0x10 => decodePlain .buildByteCount ops
    | 0x11 => decodePlain .buildClear ops
    | 0x12 => decodeDescribe ops
    | _ => .error (.reservedSelector selector)

/-! ## Encoding -/

/-- The bytes of a TAB frame (30_encoding.md R70). -/
def encodeFrame (opcode : Byte) (f : Frame) : List Byte :=
  MARKER0 :: MARKER1 :: f.length :: byteOf f.hwId 0 :: byteOf f.hwId 1 ::
    byteOf f.msgId 0 :: byteOf f.msgId 1 :: f.route :: opcode :: f.payload

/-- The words of an instruction: a TAB instruction's frame, a host operation's selector and operands. -/
def encode (m : OpcodeMap) : Instr → List Byte
  | .ack f => encodeFrame (m.valueOf .ack) f
  | .nack f => encodeFrame (m.valueOf .nack) f
  | .debug f => encodeFrame (m.valueOf .debug) f
  | .data f _ => encodeFrame (m.valueOf .data) f
  | .writeExt f => encodeFrame (m.valueOf .writeExt) f
  | .eraseSectorExt f => encodeFrame (m.valueOf .eraseSectorExt) f
  | .readExt f => encodeFrame (m.valueOf .readExt) f
  | .blAck f => encodeFrame (m.valueOf .blAck) f
  | .blNack f => encodeFrame (m.valueOf .blNack) f
  | .blPing f => encodeFrame (m.valueOf .blPing) f
  | .blErase f => encodeFrame (m.valueOf .blErase) f
  | .blWritePage f => encodeFrame (m.valueOf .blWritePage) f
  | .blWritePageAddr32 f => encodeFrame (m.valueOf .blWritePageAddr32) f
  | .blJump f => encodeFrame (m.valueOf .blJump) f
  | .power f => encodeFrame (m.valueOf .power) f
  | .getTelem f => encodeFrame (m.valueOf .getTelem) f
  | .getTime f _ _ => encodeFrame (m.valueOf .getTime) f
  | .reboot f => encodeFrame (m.valueOf .reboot) f
  | .setTime f => encodeFrame (m.valueOf .setTime) f
  | .telem f => encodeFrame (m.valueOf .telem) f
  | .feed b => [0x01, b]
  | .rxClear => [0x02]
  | .rxQuery => [0x03]
  | .replyGen apply clock draw =>
    0x04 :: (if apply then 1 else 0) ::
      (bytesLE64 clock.sec ++ bytesLE32 (BitVec.ofNat 32 clock.ns.val) ++ draw.toList)
  | .replyTake => [0x05]
  | .buildNew opcode hwId msgId src dst =>
    0x06 :: opcode :: (bytesLE16 hwId ++ bytesLE16 msgId ++
      [BitVec.ofNat 8 src.toNat, BitVec.ofNat 8 dst.toNat])
  | .buildDebug text => 0x07 :: text
  | .buildData data => 0x08 :: data
  | .buildWriteExt address data flashId => 0x09 :: (bytesLE32 address ++ (data ++ [flashId]))
  | .buildEraseSectorExt address flashId => 0x0A :: (bytesLE32 address ++ [flashId])
  | .buildReadExt address dataLength flashId => 0x0B :: (bytesLE32 address ++ [dataLength, flashId])
  | .buildWritePage pageNumber pageData => 0x0C :: pageNumber :: pageData
  | .buildWritePageAddr32 address pageData => 0x0D :: (bytesLE32 address ++ pageData)
  | .buildPower mode => [0x0E, mode]
  | .buildSetTime seconds nanoseconds => 0x0F :: (bytesLE32 seconds ++ bytesLE32 nanoseconds)
  | .buildByteCount => [0x10]
  | .buildClear => [0x11]
  | .describe frame => 0x12 :: frame.toList

/-! ## The opcode table's words -/

/-- How many bytes of operands a selector's operation has at the least: what zeros are laid after a
table word of the selector alone (byte strings empty). -/
def leastOperandBytes (selector : Byte) : Nat :=
  match selector.toNat with
  | 0x01 => 1
  | 0x04 => 21
  | 0x06 => 7
  | 0x09 => 5
  | 0x0A => 5
  | 0x0B => 6
  | 0x0C => 1
  | 0x0D => 4
  | 0x0E => 1
  | 0x0F => 8
  | 0x12 => 258
  | _ => 0

/-- The bytes of a table word, bits 7:0 first. -/
def tableBytes (nbits w : Nat) : List Byte :=
  (List.range (max 1 (nbits / 8))).map (fun k => BitVec.ofNat 8 (w / 256 ^ k))

/-- Whether a table word is a host operation's: its first byte is one of the eighteen selectors of
30_encoding.md R90. Any other first byte is read as a frame's opcode byte (log entry 11). -/
def isSelector (b : Byte) : Bool := decide (1 ≤ b.toNat) && decide (b.toNat ≤ 0x12)

/-- The host operation a table word stands for, zeros for the operands the word does not reach. -/
def tableOperation (bs : List Byte) : List Byte :=
  bs ++ List.replicate (leastOperandBytes (bs.headD 0) + 1 - bs.length) 0

/-- The frame a table word stands for: the word's first byte is the opcode, the bytes after it the
payload, and the ids and the route are zero. -/
def tableFrame (bs : List Byte) : List Byte :=
  MARKER0 :: MARKER1 :: BitVec.ofNat 8 (HDR_AFTER_LEN + bs.tail.length) :: 0 :: 0 :: 0 :: 0 :: 0 ::
    bs.headD 0 :: bs.tail

/-- The clock reading of a REPLY_GEN whose operand bytes are all zero. -/
def zeroClock : Clock := { sec := 0, ns := ⟨0, by decide⟩ }

/-- The TIME_DRAW of a REPLY_GEN whose operand bytes are all zero. -/
def zeroDraw : TimeDraw := #v[0, 0, 0, 0, 0, 0, 0, 0]

/-- The instruction the decoder reads from a row's word in spec/opcode_table.json. A row of format
host_op gives the selector byte; a row of format tab_frame gives the opcode byte of a frame. -/
def decodeTableWord (nbits w : Nat) : Option Instr :=
  let bs := tableBytes nbits w
  if isSelector (bs.headD 0) then (decodeOp (tableOperation bs)).toOption
  else (decodeFrame Config.opcodes false zeroClock zeroDraw (tableFrame bs)).toOption

end Sys2Proof
end

