-- ==== Sys2Proof/Machine/State.lean ====
section
/-! DEFINITION. The state of the block (10_state.md R20 to R43), as plain data, and the reasons a step
may end without a next state. -/

namespace Sys2Proof.Machine

/-- A byte buffer: the bytes that are not 0x00, by index, indices rising. An index with no entry reads
0x00, which is what reset, RX_CLEAR and every zero fill leave (10_state.md R24, R43, log entry 6). -/
abbrev Memory := List Host.Cell

/-- The eleven states of the Receive Parser, in the order of 10_state.md R23. -/
inductive RxState where
  | awaitMarker0 | awaitMarker1 | awaitLength | awaitHwIdLow | awaitHwIdHigh
  | awaitMsgIdLow | awaitMsgIdHigh | awaitRoute | awaitOpcode | awaitPayload | complete
deriving DecidableEq, Repr

/-- The status codes of `rpg_status` and `cmb_status` (60_exceptions.md R241), in the order of their
numbers. -/
inductive Status where
  | ok | invalidOperation | payloadTooLarge | unknownMode
  | invalidPageSize | unsupportedOpcode | notReady | noCommand
deriving DecidableEq, Repr

/-- The power modes by name (30_encoding.md R85), in the order of their codes. -/
inductive PowerMode where
  | run | sleep | lowpowerrun | lowpowersleep | stop0 | stop1 | stop2 | standby | shutdown
deriving DecidableEq, Repr

/-- The names of node ids (30_encoding.md R75, 43_frame_decoder.md R217). -/
inductive NodeName where
  | ground | comms | cdh | payload | unknown
deriving DecidableEq, Repr

/-- What the Frame Decoder says of a payload (43_frame_decoder.md R213 to R216). -/
inductive PayloadDesc where
  | none
  | text (bytes : List Byte)
  | data (bytes : List Byte)
  | writeExt (flashId : Byte) (address : BitVec 32) (data : List Byte)
  | eraseSectorExt (flashId : Byte) (address : BitVec 32)
  | readExt (flashId : Byte) (address : BitVec 32) (dataLength : Byte)
  | writePage (pageNumber : Byte) (pageData : List Byte)
  | writePageAddr32 (address : BitVec 32) (pageData : List Byte)
  /-- `name` is none for the codes that have no mode, the decoder's `?`. -/
  | power (code : Byte) (name : Option PowerMode)
  | time (seconds nanoseconds : BitVec 32)
  | reason (code : Byte)
deriving DecidableEq, Repr

/-- The Frame Decoder's structured answer (43_frame_decoder.md R210). -/
structure Description where
  /-- None is the decoder's `?`, the name of an unassigned opcode (R211, R212). -/
  opcodeName : Option OpName
  payload : PayloadDesc
  hwId : BitVec 16
  msgId : BitVec 16
  src : NodeName
  dst : NodeName
deriving DecidableEq, Repr

/-- What an operation gives the outside besides its effect on state (log entry 4). -/
inductive Output where
  /-- The operation returns nothing. -/
  | none
  /-- RX_QUERY's result (40_receive_parser.md R114). -/
  | rxComplete (bit : Bool)
  /-- BUILD_BYTE_COUNT's result (42_command_builder.md R186). -/
  | byteCount (count : BitVec 9)
  /-- DESCRIBE's result (43_frame_decoder.md R210). -/
  | description (d : Description)
  /-- REPLY_GEN on a DATA frame: the bytes the data-apply collaborator was invoked with
  (41_reply_generator.md R138). -/
  | applied (bytes : List Byte)
deriving DecidableEq, Repr

/-- Why the machine stops. The spec has no such condition (60_exceptions.md R240). -/
inductive Fault where
  /-- FEED in AwaitPayload with `rx_cursor` outside `rx_buf`, an index that does not exist
  (20_memory.md R50). Raised by FEED alone. Safe: R60 says no reachable state does this, and the
  model stops where the spec gives no effect (log entry 7). -/
  | bufferOverrun
deriving DecidableEq, Repr

/-- Why an operation has no step. -/
inductive Refusal where
  /-- The instruction has no meaning yet; raised by an arm of exec alone. Safe. -/
  | notModelled (mnemonic : String)
  /-- The host has issued no operation, and the block never steps without one (00_scope.md R18,
  70_reset_and_hazards.md R271). Raised by step. Safe: nothing happens (log entry 2). -/
  | noOperation
  /-- The host's bytes are no operation: a reserved selector (30_encoding.md R91) or operands outside
  their width or range (60_exceptions.md R257). Raised by step. Safe: the spec gives it no step. -/
  | notAnOperation (reason : DecodeError)
deriving DecidableEq, Repr

/-- The state of one block instance. -/
structure State where
  /-- The model's own: the opcode assignment, a parameter no operation writes (00_scope.md R8, log entry 1). -/
  opcodes : OpcodeMap
  /-- `rx_state`, 10_state.md R23. -/
  rxState : RxState
  /-- `rx_buf`, 10_state.md R24. -/
  rxBuf : Memory
  /-- `rx_cursor`, 10_state.md R25. -/
  rxCursor : BitVec 9
  /-- `rx_end`, 10_state.md R26. -/
  rxEnd : BitVec 9
  /-- `tx_buf`, 10_state.md R29. -/
  txBuf : Memory
  /-- `tx_pending`, 10_state.md R30. -/
  txPending : Bool
  /-- `rpg_status`, 10_state.md R31. -/
  rpgStatus : Status
  /-- `acc_buf`, 10_state.md R32. -/
  accBuf : Memory
  /-- `acc_count`, 10_state.md R33. -/
  accCount : BitVec 8
  /-- `cmb_buf`, 10_state.md R34. -/
  cmbBuf : Memory
  /-- `cmb_valid`, 10_state.md R35. -/
  cmbValid : Bool
  /-- `cmb_opcode`, 10_state.md R36. -/
  cmbOpcode : Byte
  /-- `cmb_status`, 10_state.md R37. -/
  cmbStatus : Status
  /-- The model's own: what the last operation returned (log entry 4). -/
  output : Output
  /-- The model's own: the operations the host has issued and the block has not taken, oldest first,
  each as its bytes (log entry 2). -/
  pendingOps : List (List Byte)
deriving DecidableEq, Repr

/-- The block right after reset (10_state.md R43, 70_reset_and_hazards.md R270). -/
def State.reset : State where
  opcodes := Config.opcodes
  rxState := .awaitMarker0
  rxBuf := []
  rxCursor := 0
  rxEnd := 0
  txBuf := []
  txPending := false
  rpgStatus := .ok
  accBuf := []
  accCount := 0
  cmbBuf := []
  cmbValid := false
  cmbOpcode := 0x00
  cmbStatus := .ok
  output := .none
  pendingOps := []

end Sys2Proof.Machine
end

