-- ==== Sys2Proof/Machine/Ops.lean ====
section
/-! DEFINITION. The named operations over the buffers and the registers (00_scope.md R12, R13), and
raising a status, which is all that an error does (60_exceptions.md R248: there is no trap entry and
no return from one). -/

namespace Sys2Proof.Machine

/-- What an operation answers. -/
abbrev Answer := Host.Outcome State Fault Refusal

/-! ## Buffers -/

/-- `buf[a]`, one byte (00_scope.md R12, 20_memory.md R51). An index with no entry reads 0x00. -/
def Memory.read : Memory → Nat → Byte
  | [], _ => 0
  | c :: m, a => if a = c.1 then c.2 else Memory.read m a

/-- Put a cell among cells with rising indices. -/
def Memory.insert (c : Host.Cell) : Memory → Memory
  | [] => [c]
  | d :: m => if c.1 < d.1 then c :: d :: m else d :: Memory.insert c m

/-- `buf[a] <- v` (00_scope.md R12). Writing 0x00 removes the entry, so that equal buffers are equal
data. -/
def Memory.write (m : Memory) (a : Nat) (v : Byte) : Memory :=
  let rest := m.filter (fun c => c.1 != a)
  if v = 0 then rest else Memory.insert (a, v) rest

/-- `MemWrite(buf, a, n, s)` with n = len(s) (00_scope.md R12). -/
def Memory.writeBytes (m : Memory) (a : Nat) : List Byte → Memory
  | [] => m
  | b :: bs => Memory.writeBytes (m.write a b) (a + 1) bs

/-- The subsequence `f[a..e)` of any indexed bytes; empty when e <= a (00_scope.md R10). -/
def slice (f : Nat → Byte) (a e : Nat) : List Byte := (List.range (e - a)).map (fun k => f (a + k))

/-- `MemRead(buf, a, n)` (00_scope.md R12). -/
def Memory.readBytes (m : Memory) (a n : Nat) : List Byte := slice m.read a (a + n)

/-- Every byte 0x00: what `for i in 0..257: buf[i] <- 0x00` leaves. -/
def Memory.zero : Memory := []

/-- The canonical form: indices rising, no entry that reads as an absent one does. -/
abbrev Memory.wf (m : Memory) : Prop := m.Pairwise (fun c d => c.1 < d.1) ∧ ∀ c ∈ m, c.2 ≠ 0

/-- A buffer of `cap` bytes has no entry outside it (20_memory.md R50). -/
abbrev Memory.within (m : Memory) (cap : Nat) : Prop := ∀ c ∈ m, c.1 < cap

/-! ## Raising a status -/

/-- `raise` in the Reply Generator: its status register and nothing else (00_scope.md R13). -/
def raiseRpg (e : Status) (s : State) : Answer := .next { s with rpgStatus := e }

/-- `raise` in the Command Builder: its status register and nothing else (00_scope.md R13). -/
def raiseCmb (e : Status) (s : State) : Answer := .next { s with cmbStatus := e }

/-! ## Operations on whole units -/

/-- What RX_CLEAR and a hard reset write (40_receive_parser.md R101, R113). -/
def clearParser (s : State) : State :=
  { s with rxBuf := Memory.zero, rxCursor := 0, rxEnd := 0, rxState := .awaitMarker0 }

/-- Store one header byte of a frame and go on (40_receive_parser.md R102 to R110). -/
def storeRx (s : State) (offset : Nat) (b : Byte) (next : RxState) : State :=
  { s with rxBuf := s.rxBuf.write offset b, rxState := next }

/-- The block takes the oldest operation the host has issued; nothing is returned yet (log entries 2
and 4). -/
def takeOperation (s : State) (rest : List (List Byte)) : State :=
  { s with pendingOps := rest, output := .none }

end Sys2Proof.Machine
end

