-- ==== Sys2Proof/Machine/Operands.lean ====
section
/-! DEFINITION. The operand forms: multi-byte fields in the byte order of their family (20_memory.md
R52 to R55), the frame a buffer holds, names of codes, and the time since the epoch. -/

namespace Sys2Proof.Machine

/-- `RdLE16(buf, a)` (20_memory.md R52). -/
def rdLE16 (f : Nat → Byte) (a : Nat) : BitVec 16 := num16 (f a) (f (a + 1))

/-- `RdLE32(buf, a)` (20_memory.md R54). -/
def rdLE32 (f : Nat → Byte) (a : Nat) : BitVec 32 := num32 (f a) (f (a + 1)) (f (a + 2)) (f (a + 3))

/-- `RdBE32(buf, a)` (20_memory.md R53). -/
def rdBE32 (f : Nat → Byte) (a : Nat) : BitVec 32 := num32 (f (a + 3)) (f (a + 2)) (f (a + 1)) (f a)

/-- `WrLE16(buf, a, v)` (20_memory.md R52). -/
def wrLE16 (m : Memory) (a : Nat) (v : BitVec 16) : Memory := m.writeBytes a (bytesLE16 v)

/-- `WrLE32(buf, a, v)` (20_memory.md R54). -/
def wrLE32 (m : Memory) (a : Nat) (v : BitVec 32) : Memory := m.writeBytes a (bytesLE32 v)

/-- `PackRoute(src, dst)` (20_memory.md R55). -/
def packRoute (src dst : BitVec 4) : Byte := BitVec.ofNat 8 (16 * src.toNat + dst.toNat)

/-- `RouteSrc(r) = r[7:4]` (20_memory.md R55). -/
def routeSrc (r : Byte) : BitVec 4 := BitVec.ofNat 4 (r.toNat / 16)

/-- `RouteDst(r) = r[3:0]` (20_memory.md R55). -/
def routeDst (r : Byte) : BitVec 4 := BitVec.ofNat 4 (r.toNat % 16)

/-- `Swap(r) = r[3:0] * 16 + r[7:4]` (41_reply_generator.md R133). -/
def swapRoute (r : Byte) : Byte := BitVec.ofNat 8 (16 * (r.toNat % 16) + r.toNat / 16)

/-- The payload length P = L - 6 (30_encoding.md R73); 0 for an L below 6, which no frame the parser
completes has (log entry 8). -/
def payloadLength (l : Byte) : Nat := l.toNat - HDR_AFTER_LEN

/-- The frame end E = L + 3 (30_encoding.md R72). -/
def frameEnd (l : Byte) : Nat := l.toNat + 3

/-- The frame indexed bytes hold, its markers and its opcode left out (30_encoding.md R70, R73, R74). -/
def frameAt (f : Nat → Byte) : Frame where
  length := f 2
  hwId := rdLE16 f 3
  msgId := rdLE16 f 5
  route := f 7
  payload := slice f PAYLOAD_OFF (frameEnd (f 2))

/-- `NodeName(n)` (43_frame_decoder.md R217). -/
def nodeName (n : BitVec 4) : NodeName :=
  match n.toNat with
  | 0 => .ground
  | 1 => .comms
  | 2 => .cdh
  | 3 => .payload
  | _ => .unknown

/-- `ModeName(code)`: none is `?` (30_encoding.md R85, 43_frame_decoder.md R216). -/
def modeName (code : Byte) : Option PowerMode :=
  match code.toNat with
  | 0 => some .run
  | 1 => some .sleep
  | 2 => some .lowpowerrun
  | 3 => some .lowpowersleep
  | 4 => some .stop0
  | 5 => some .stop1
  | 6 => some .stop2
  | 7 => some .standby
  | 8 => some .shutdown
  | _ => none

/-- `SinceEpoch(clk_sec, clk_ns)` (41_reply_generator.md R158): none for a reading before the epoch. -/
def sinceEpoch (c : Clock) : Option (BitVec 32 × BitVec 32) :=
  let now := NANOS * c.sec.toNat + c.ns.val
  let epoch := NANOS * EPOCH_S + EPOCH_NS_FRAC
  if now < epoch then none
  else
    let d := now - epoch
    some (BitVec.ofNat 32 (d / NANOS % 2 ^ 32), BitVec.ofNat 32 (d % NANOS))

end Sys2Proof.Machine
end

