-- ==== Sys2Proof/Machine/Flags.lean ====
section
/-! DEFINITION. The flags, the numbers of states and status codes, and the host's reading of every
register (10_state.md R23, R27, R38, R39, R42, 60_exceptions.md R241). -/

namespace Sys2Proof.Machine

/-- `rx_complete`: computed, not stored (10_state.md R27). -/
def rxComplete (s : State) : Bool := decide (s.rxState = .complete)

/-- REPLY_GEN's precondition fails (41_reply_generator.md R130). -/
def notReady (s : State) : Bool := !rxComplete s || s.txPending

/-- The number of a parser state (10_state.md R23). -/
def RxState.code : RxState → BitVec 4
  | .awaitMarker0 => 0
  | .awaitMarker1 => 1
  | .awaitLength => 2
  | .awaitHwIdLow => 3
  | .awaitHwIdHigh => 4
  | .awaitMsgIdLow => 5
  | .awaitMsgIdHigh => 6
  | .awaitRoute => 7
  | .awaitOpcode => 8
  | .awaitPayload => 9
  | .complete => 10

/-- The number of a status code (60_exceptions.md R241). -/
def Status.code : Status → BitVec 3
  | .ok => 0
  | .invalidOperation => 1
  | .payloadTooLarge => 2
  | .unknownMode => 3
  | .invalidPageSize => 4
  | .unsupportedOpcode => 5
  | .notReady => 6
  | .noCommand => 7

/-- What the host can read by name (10_state.md R42): every register, the flag `rx_complete`, and
every byte of every buffer. -/
inductive HostReg where
  | rxState | rxCursor | rxEnd | rxComplete | txPending | rpgStatus | accCount
  | cmbValid | cmbOpcode | cmbStatus
  | rxBuf (i : Fin FRAME_CAP) | txBuf (i : Fin FRAME_CAP)
  | accBuf (i : Fin ACC_CAP) | cmbBuf (i : Fin FRAME_CAP)
deriving DecidableEq, Repr

/-- What the host reads, as a number; a function of the state alone, so reading changes nothing
(10_state.md R42, 20_memory.md R59). -/
def hostRead (s : State) : HostReg → Nat
  | .rxState => s.rxState.code.toNat
  | .rxCursor => s.rxCursor.toNat
  | .rxEnd => s.rxEnd.toNat
  | .rxComplete => (Machine.rxComplete s).toNat
  | .txPending => s.txPending.toNat
  | .rpgStatus => s.rpgStatus.code.toNat
  | .accCount => s.accCount.toNat
  | .cmbValid => s.cmbValid.toNat
  | .cmbOpcode => s.cmbOpcode.toNat
  | .cmbStatus => s.cmbStatus.code.toNat
  | .rxBuf i => (s.rxBuf.read i.val).toNat
  | .txBuf i => (s.txBuf.read i.val).toNat
  | .accBuf i => (s.accBuf.read i.val).toNat
  | .cmbBuf i => (s.cmbBuf.read i.val).toNat

end Sys2Proof.Machine
end

