-- ==== Sys2Proof/Machine/CommandBuilder.lean ====
section
/-! DEFINITION. The Command Builder: BUILD_NEW, the nine setters, BUILD_BYTE_COUNT, BUILD_CLEAR
(42_command_builder.md). -/

namespace Sys2Proof.Machine

/-- `DefaultLen(opcode)` by name; 6 for an unassigned byte (R171). -/
def defaultLen : Option OpName → Byte
  | some .writeExt => 0x0b
  | some .eraseSectorExt => 0x0b
  | some .readExt => 0x0b
  | some .blWritePage => 0x07
  | some .power => 0x07
  | some .blWritePageAddr32 => 0x0a
  | some .setTime => 0x0e
  | _ => 0x06

/-- The command BUILD_NEW constructs, in a zero-filled buffer (R170). -/
def newCommand (m : OpcodeMap) (opcode : Byte) (hwId msgId : BitVec 16) (src dst : BitVec 4) : Memory :=
  let header := Memory.zero.writeBytes 0 [MARKER0, MARKER1, defaultLen (m.nameOf opcode)]
  (wrLE16 (wrLE16 header 3 hwId) 5 msgId).writeBytes 7 [packRoute src dst, opcode]

/-- BUILD_NEW (R170): every opcode byte is accepted. -/
def execBuildNew (opcode : Byte) (hwId msgId : BitVec 16) (src dst : BitVec 4) (s : State) : Answer :=
  .next { s with
    cmbBuf := newCommand s.opcodes opcode hwId msgId src dst
    cmbOpcode := opcode
    cmbValid := true
    cmbStatus := .ok }

/-- A setter: NoCommand first, then InvalidOperation, then its own argument check, then its writes
(R173, R174, 60_exceptions.md R246). The comparison is with `cmb_opcode`, not with `cmb_buf[8]`. -/
def setter (expected : OpName) (argument : Option Status) (write : Memory → Memory) (s : State) : Answer :=
  if s.cmbValid = false then raiseCmb .noCommand s
  else if s.cmbOpcode ≠ s.opcodes.valueOf expected then raiseCmb .invalidOperation s
  else
    match argument with
    | some e => raiseCmb e s
    | none => .next { s with cmbBuf := write s.cmbBuf, cmbStatus := .ok }

/-- The payload of a command at offset 9 and the length byte, in place: nothing else of the buffer is
written (R175). -/
def putPayload (payload : List Byte) (m : Memory) : Memory :=
  (m.writeBytes PAYLOAD_OFF payload).write 2 (BitVec.ofNat 8 (HDR_AFTER_LEN + payload.length))

/-- The argument check of a setter. -/
def checkArgument (ok : Bool) (e : Status) : Option Status := if ok then none else some e

/-- BUILD_DEBUG (R176): the text is not checked for ASCII. -/
def execBuildDebug (text : List Byte) (s : State) : Answer :=
  setter .debug (checkArgument (decide (text.length ≤ PAYLOAD_CAP)) .payloadTooLarge) (putPayload text) s

/-- BUILD_DATA (R177). -/
def execBuildData (data : List Byte) (s : State) : Answer :=
  setter .data (checkArgument (decide (data.length ≤ PAYLOAD_CAP)) .payloadTooLarge) (putPayload data) s

/-- BUILD_WRITE_EXT (R178): flash_id, the address big-endian, the data. -/
def execBuildWriteExt (address : BitVec 32) (data : List Byte) (flashId : Byte) (s : State) : Answer :=
  setter .writeExt (checkArgument (decide (data.length ≤ WRITE_EXT_CAP)) .payloadTooLarge)
    (putPayload (flashId :: (bytesBE32 address ++ data))) s

/-- BUILD_ERASE_SECTOR_EXT (R179): flash_id, the address big-endian. -/
def execBuildEraseSectorExt (address : BitVec 32) (flashId : Byte) (s : State) : Answer :=
  setter .eraseSectorExt none (putPayload (flashId :: bytesBE32 address)) s

/-- BUILD_READ_EXT (R180): flash_id, the address big-endian, data_length. -/
def execBuildReadExt (address : BitVec 32) (dataLength flashId : Byte) (s : State) : Answer :=
  setter .readExt none (putPayload (flashId :: (bytesBE32 address ++ [dataLength]))) s

/-- BUILD_WRITE_PAGE (R181): the page number, then the 128 bytes. -/
def execBuildWritePage (pageNumber : Byte) (pageData : List Byte) (s : State) : Answer :=
  setter .blWritePage (checkArgument (decide (pageData.length = PAGE_SIZE)) .invalidPageSize)
    (putPayload (pageNumber :: pageData)) s

/-- BUILD_WRITE_PAGE_ADDR32 (R182): the address big-endian, then the 128 bytes. -/
def execBuildWritePageAddr32 (address : BitVec 32) (pageData : List Byte) (s : State) : Answer :=
  setter .blWritePageAddr32 (checkArgument (decide (pageData.length = PAGE_SIZE)) .invalidPageSize)
    (putPayload (bytesBE32 address ++ pageData)) s

/-- BUILD_POWER (R184): codes above 8 are refused. -/
def execBuildPower (mode : Byte) (s : State) : Answer :=
  setter .power (checkArgument (decide (mode.toNat ≤ 8)) .unknownMode) (putPayload [mode]) s

/-- BUILD_SET_TIME (R185): both fields little-endian, no range check. -/
def execBuildSetTime (seconds nanoseconds : BitVec 32) (s : State) : Answer :=
  setter .setTime none (putPayload (bytesLE32 seconds ++ bytesLE32 nanoseconds)) s

/-- `byte_count()`: length + 3 (R186). -/
def byteCount (s : State) : BitVec 9 := BitVec.ofNat 9 (frameEnd (s.cmbBuf.read 2))

/-- BUILD_BYTE_COUNT (R186): a pure read that leaves `cmb_status` unchanged. -/
def execBuildByteCount (s : State) : Answer := .next { s with output := .byteCount (byteCount s) }

/-- BUILD_CLEAR (R187): the constructed opcode survives. -/
def execBuildClear (s : State) : Answer := .next { s with cmbBuf := Memory.zero, cmbStatus := .ok }

end Sys2Proof.Machine
end

