-- ==== Sys2Proof/Machine/FrameDecoder.lean ====
section
/-! DEFINITION. The Frame Decoder: DESCRIBE (43_frame_decoder.md). -/

namespace Sys2Proof.Machine

/-- `PayloadDesc(f)` (R213 to R216); an unassigned opcode has none (R212). Page data is read at its
fixed offsets, whatever the length byte says (R215). -/
def payloadDesc (n : Option OpName) (f : Nat → Byte) : PayloadDesc :=
  let e := frameEnd (f 2)
  match n with
  | some .debug => .text (slice f 9 e)
  | some .data => .data (slice f 9 e)
  | some .writeExt => .writeExt (f 9) (rdBE32 f 10) (slice f 14 e)
  | some .eraseSectorExt => .eraseSectorExt (f 9) (rdBE32 f 10)
  | some .readExt => .readExt (f 9) (rdBE32 f 10) (f 14)
  | some .blWritePage => .writePage (f 9) (slice f 10 138)
  | some .blWritePageAddr32 => .writePageAddr32 (rdBE32 f 9) (slice f 13 141)
  | some .power => .power (f 9) (modeName (f 9))
  | some .setTime => .time (rdLE32 f 9) (rdLE32 f 13)
  | some .nack => if 7 ≤ (f 2).toNat then .reason (f 9) else .none
  | some .ack | some .getTelem | some .getTime | some .reboot | some .telem => .none
  | some .blAck | some .blNack | some .blPing | some .blErase | some .blJump => .none
  | none => .none

/-- `DESCRIBE(f)` (R210): markers and length are not validated. -/
def describe (m : OpcodeMap) (f : Nat → Byte) : Description where
  opcodeName := m.nameOf (f 8)
  payload := payloadDesc (m.nameOf (f 8)) f
  hwId := rdLE16 f 3
  msgId := rdLE16 f 5
  src := nodeName (routeSrc (f 7))
  dst := nodeName (routeDst (f 7))

/-- Byte i of a 258-byte operand; the decoder reads none outside it (R218). -/
def operandByte (frame : Vector Byte FRAME_CAP) (i : Nat) : Byte := frame.toList.getD i 0

/-- DESCRIBE (R210): returns the Description and has no effect on the block (R220). -/
def execDescribe (frame : Vector Byte FRAME_CAP) (s : State) : Answer :=
  .next { s with output := .description (describe s.opcodes (operandByte frame)) }

end Sys2Proof.Machine
end

