-- ==== Sys2Proof/Machine/ReceiveParser.lean ====
section
/-! DEFINITION. The Receive Parser: FEED, RX_CLEAR, RX_QUERY (40_receive_parser.md). -/

namespace Sys2Proof.Machine

/-- FEED in AwaitMarker0 (R102): another byte is dropped, which is no framing error. -/
def feedMarker0 (b : Byte) (s : State) : State :=
  if b = MARKER0 then storeRx s 0 b .awaitMarker1 else s

/-- FEED in AwaitMarker1 (R103): a mismatch is consumed by the hard reset, even a 0x22 (R101). -/
def feedMarker1 (b : Byte) (s : State) : State :=
  if b = MARKER1 then storeRx s 1 b .awaitLength else clearParser s

/-- FEED in AwaitLength (R104). -/
def feedLength (b : Byte) (s : State) : State :=
  if LEN_MIN ≤ b.toNat then
    { storeRx s 2 b .awaitHwIdLow with
      rxCursor := BitVec.ofNat 9 PAYLOAD_OFF
      rxEnd := BitVec.ofNat 9 (frameEnd b) }
  else clearParser s

/-- FEED in AwaitOpcode (R110): a frame without payload is complete at once. -/
def feedOpcode (b : Byte) (s : State) : State :=
  storeRx s 8 b (if s.rxCursor < s.rxEnd then .awaitPayload else .complete)

/-- FEED in AwaitPayload (R111). An `rx_cursor` outside the buffer names no byte (20_memory.md R50,
R60, log entry 7). -/
def feedPayload (b : Byte) (s : State) : Answer :=
  if s.rxCursor.toNat < FRAME_CAP then
    let cursor := s.rxCursor + 1
    .next { s with
      rxBuf := s.rxBuf.write s.rxCursor.toNat b
      rxCursor := cursor
      rxState := if cursor = s.rxEnd then .complete else .awaitPayload }
  else .fault .bufferOverrun

/-- FEED (R100), one arm per parser state. -/
def execFeed (b : Byte) (s : State) : Answer :=
  match s.rxState with
  | .awaitMarker0 => .next (feedMarker0 b s)
  | .awaitMarker1 => .next (feedMarker1 b s)
  | .awaitLength => .next (feedLength b s)
  | .awaitHwIdLow => .next (storeRx s 3 b .awaitHwIdHigh)
  | .awaitHwIdHigh => .next (storeRx s 4 b .awaitMsgIdLow)
  | .awaitMsgIdLow => .next (storeRx s 5 b .awaitMsgIdHigh)
  | .awaitMsgIdHigh => .next (storeRx s 6 b .awaitRoute)
  | .awaitRoute => .next (storeRx s 7 b .awaitOpcode)
  | .awaitOpcode => .next (feedOpcode b s)
  | .awaitPayload => feedPayload b s
  | .complete => .next s

/-- RX_CLEAR (R113), in any state. -/
def execRxClear (s : State) : Answer := .next (clearParser s)

/-- RX_QUERY (R114): returns `rx_complete` and changes nothing of the block. -/
def execRxQuery (s : State) : Answer := .next { s with output := .rxComplete (rxComplete s) }

end Sys2Proof.Machine
end

