-- ==== Sys2Proof/Machine/ReplyGenerator.lean ====
section
/-! DEFINITION. The Reply Generator and the Common Data Accumulator: the reply to each of the twenty
TAB opcodes, REPLY_GEN, which meets them, and REPLY_TAKE (41_reply_generator.md). -/

namespace Sys2Proof.Machine

/-! ## The common parts -/

/-- `Header(rlen, rop)` for the reply to `f`: ids verbatim, route swapped (R131). -/
def replyHeader (f : Frame) (rlen rop : Byte) (tx : Memory) : Memory :=
  tx.writeBytes 0 [MARKER0, MARKER1, rlen, byteOf f.hwId 0, byteOf f.hwId 1, byteOf f.msgId 0,
    byteOf f.msgId 1, swapRoute f.route, rop]

/-- `ShortReply(rop)`: a reply of nine bytes (R134). -/
def shortReply (f : Frame) (n : OpName) (s : State) : State :=
  { s with txBuf := replyHeader f 6 (s.opcodes.valueOf n) s.txBuf }

/-- `Finish()` (R132). -/
def finishReply (s : State) : State := { s with txPending := true, rpgStatus := .ok }

/-- What every TAB opcode shares with REPLY_GEN: the NotReady check before any write, the zero fill
of `tx_buf`, the opcode's own reply, Finish (R130, R132). -/
def answerFrame (reply : State → State) (s : State) : Answer :=
  if notReady s then raiseRpg .notReady s
  else .next (finishReply (reply { s with txBuf := Memory.zero }))

/-- The echo of an inbound payload: `for i in 9..L+2` (R137). -/
def echoReply (f : Frame) (s : State) : State :=
  let header := replyHeader f f.length (s.opcodes.valueOf .debug) s.txBuf
  { s with txBuf := header.writeBytes PAYLOAD_OFF (f.payload.take (payloadLength f.length)) }

/-- The accumulator takes the payload and the data-apply collaborator is invoked with it, once; the
bytes at P and above stay (R138). -/
def accumulate (f : Frame) (s : State) : State :=
  let p := payloadLength f.length
  let acc := s.accBuf.writeBytes 0 (f.payload.take p)
  { s with accBuf := acc, accCount := BitVec.ofNat 8 p, output := .applied (acc.readBytes 0 p) }

/-- The reply to POWER: a NACK with the reason byte 0x01 (R149). -/
def powerReply (f : Frame) (s : State) : State :=
  { s with txBuf := (replyHeader f 0x07 (s.opcodes.valueOf .nack) s.txBuf).write 9 0x01 }

/-- The reply to GET_TELEM: 78 payload bytes, zero from the zero fill (R150). -/
def telemReply (f : Frame) (s : State) : State :=
  { s with txBuf := replyHeader f 0x54 (s.opcodes.valueOf .telem) s.txBuf }

/-- The payload of the reply to GET_TIME; the free bytes TIME_DRAW for a reading before the epoch
(R151). -/
def timePayload (clock : Clock) (draw : TimeDraw) (tx : Memory) : Memory :=
  match sinceEpoch clock with
  | some (sec, ns) => wrLE32 (wrLE32 tx 9 sec) 13 ns
  | none => tx.writeBytes 9 draw.toList

/-- The reply to GET_TIME (R151). -/
def timeReply (f : Frame) (clock : Clock) (draw : TimeDraw) (s : State) : State :=
  { s with txBuf := timePayload clock draw (replyHeader f 0x0e (s.opcodes.valueOf .setTime) s.txBuf) }

/-! ## The twenty opcodes -/

/-- Inbound ACK (R135). -/
def execAck (f : Frame) (s : State) : Answer := answerFrame (shortReply f .ack) s

/-- Inbound NACK (R136). -/
def execNack (f : Frame) (s : State) : Answer := answerFrame (shortReply f .nack) s

/-- Inbound DEBUG (R137). -/
def execDebug (f : Frame) (s : State) : Answer := answerFrame (echoReply f) s

/-- Inbound DATA (R138); a false answer of the collaborator is a NACK and no error (60_exceptions.md R244). -/
def execData (f : Frame) (apply : Bool) (s : State) : Answer :=
  answerFrame (fun t => shortReply f (if apply then .ack else .nack) (accumulate f t)) s

/-- Inbound WRITE_EXT: not implemented over this path (R139). -/
def execWriteExt (f : Frame) (s : State) : Answer := answerFrame (shortReply f .nack) s

/-- Inbound ERASE_SECTOR_EXT (R140). -/
def execEraseSectorExt (f : Frame) (s : State) : Answer := answerFrame (shortReply f .nack) s

/-- Inbound READ_EXT (R141). -/
def execReadExt (f : Frame) (s : State) : Answer := answerFrame (shortReply f .nack) s

/-- Inbound bootloader ACK: the common NACK, not the bootloader's (R142). -/
def execBlAck (f : Frame) (s : State) : Answer := answerFrame (shortReply f .nack) s

/-- Inbound bootloader NACK (R143). -/
def execBlNack (f : Frame) (s : State) : Answer := answerFrame (shortReply f .nack) s

/-- Inbound bootloader PING (R144). -/
def execBlPing (f : Frame) (s : State) : Answer := answerFrame (shortReply f .nack) s

/-- Inbound bootloader ERASE (R145). -/
def execBlErase (f : Frame) (s : State) : Answer := answerFrame (shortReply f .nack) s

/-- Inbound bootloader WRITE_PAGE (R146). -/
def execBlWritePage (f : Frame) (s : State) : Answer := answerFrame (shortReply f .nack) s

/-- Inbound bootloader WRITE_PAGE_ADDR32 (R147). -/
def execBlWritePageAddr32 (f : Frame) (s : State) : Answer := answerFrame (shortReply f .nack) s

/-- Inbound bootloader JUMP (R148). -/
def execBlJump (f : Frame) (s : State) : Answer := answerFrame (shortReply f .nack) s

/-- Inbound POWER (R149). -/
def execPower (f : Frame) (s : State) : Answer := answerFrame (powerReply f) s

/-- Inbound GET_TELEM (R150). -/
def execGetTelem (f : Frame) (s : State) : Answer := answerFrame (telemReply f) s

/-- Inbound GET_TIME (R151). -/
def execGetTime (f : Frame) (clock : Clock) (draw : TimeDraw) (s : State) : Answer :=
  answerFrame (timeReply f clock draw) s

/-- Inbound REBOOT: no reboot is performed (R152). -/
def execReboot (f : Frame) (s : State) : Answer := answerFrame (shortReply f .nack) s

/-- Inbound SET_TIME: the block keeps no time (R153). -/
def execSetTime (f : Frame) (s : State) : Answer := answerFrame (shortReply f .nack) s

/-- Inbound TELEM (R154). -/
def execTelem (f : Frame) (s : State) : Answer := answerFrame (shortReply f .nack) s

/-! ## The host operations -/

/-- `case op of` in REPLY_GEN (R130): the arm of one opcode. -/
def dispatchFrame (n : OpName) (f : Frame) (apply : Bool) (clock : Clock) (draw : TimeDraw)
    (s : State) : Answer :=
  match n with
  | .ack => execAck f s
  | .nack => execNack f s
  | .debug => execDebug f s
  | .data => execData f apply s
  | .writeExt => execWriteExt f s
  | .eraseSectorExt => execEraseSectorExt f s
  | .readExt => execReadExt f s
  | .blAck => execBlAck f s
  | .blNack => execBlNack f s
  | .blPing => execBlPing f s
  | .blErase => execBlErase f s
  | .blWritePage => execBlWritePage f s
  | .blWritePageAddr32 => execBlWritePageAddr32 f s
  | .blJump => execBlJump f s
  | .power => execPower f s
  | .getTelem => execGetTelem f s
  | .getTime => execGetTime f clock draw s
  | .reboot => execReboot f s
  | .setTime => execSetTime f s
  | .telem => execTelem f s

/-- REPLY_GEN (R130): NotReady first, then UnsupportedOpcode (60_exceptions.md R246), then the arm of
the inbound opcode `rx_buf[8]`. -/
def execReplyGen (apply : Bool) (clock : Clock) (draw : TimeDraw) (s : State) : Answer :=
  if notReady s then raiseRpg .notReady s
  else
    match s.opcodes.nameOf (s.rxBuf.read 8) with
    | none => raiseRpg .unsupportedOpcode s
    | some n => dispatchFrame n (frameAt s.rxBuf.read) apply clock draw s

/-- REPLY_TAKE (R156): `tx_buf` keeps its bytes. -/
def execReplyTake (s : State) : Answer :=
  if s.txPending then .next { s with txPending := false, rpgStatus := .ok }
  else raiseRpg .notReady s

end Sys2Proof.Machine
end

