-- ==== Sys2Proof/Machine/Dispatch.lean ====
section
/-! DEFINITION. The meaning of every instruction, one arm each. -/

namespace Sys2Proof.Machine

def exec (i : Instr) (s : State) : Host.Outcome State Fault Refusal :=
  match i with
  -- the TAB frames (41_reply_generator.md R135 to R154)
  | .ack f => Sys2Proof.Machine.execAck f s
  | .nack f => Sys2Proof.Machine.execNack f s
  | .debug f => Sys2Proof.Machine.execDebug f s
  | .data f apply => Sys2Proof.Machine.execData f apply s
  | .writeExt f => Sys2Proof.Machine.execWriteExt f s
  | .eraseSectorExt f => Sys2Proof.Machine.execEraseSectorExt f s
  | .readExt f => Sys2Proof.Machine.execReadExt f s
  | .blAck f => Sys2Proof.Machine.execBlAck f s
  | .blNack f => Sys2Proof.Machine.execBlNack f s
  | .blPing f => Sys2Proof.Machine.execBlPing f s
  | .blErase f => Sys2Proof.Machine.execBlErase f s
  | .blWritePage f => Sys2Proof.Machine.execBlWritePage f s
  | .blWritePageAddr32 f => Sys2Proof.Machine.execBlWritePageAddr32 f s
  | .blJump f => Sys2Proof.Machine.execBlJump f s
  | .power f => Sys2Proof.Machine.execPower f s
  | .getTelem f => Sys2Proof.Machine.execGetTelem f s
  | .getTime f clock draw => Sys2Proof.Machine.execGetTime f clock draw s
  | .reboot f => Sys2Proof.Machine.execReboot f s
  | .setTime f => Sys2Proof.Machine.execSetTime f s
  | .telem f => Sys2Proof.Machine.execTelem f s
  -- the Receive Parser (40_receive_parser.md)
  | .feed b => Sys2Proof.Machine.execFeed b s
  | .rxClear => Sys2Proof.Machine.execRxClear s
  | .rxQuery => Sys2Proof.Machine.execRxQuery s
  -- the Reply Generator (41_reply_generator.md)
  | .replyGen apply clock draw => Sys2Proof.Machine.execReplyGen apply clock draw s
  | .replyTake => Sys2Proof.Machine.execReplyTake s
  -- the Command Builder (42_command_builder.md)
  | .buildNew opcode hwId msgId src dst => Sys2Proof.Machine.execBuildNew opcode hwId msgId src dst s
  | .buildDebug text => Sys2Proof.Machine.execBuildDebug text s
  | .buildData data => Sys2Proof.Machine.execBuildData data s
  | .buildWriteExt address data flashId => Sys2Proof.Machine.execBuildWriteExt address data flashId s
  | .buildEraseSectorExt address flashId => Sys2Proof.Machine.execBuildEraseSectorExt address flashId s
  | .buildReadExt address dataLength flashId => Sys2Proof.Machine.execBuildReadExt address dataLength flashId s
  | .buildWritePage pageNumber pageData => Sys2Proof.Machine.execBuildWritePage pageNumber pageData s
  | .buildWritePageAddr32 address pageData => Sys2Proof.Machine.execBuildWritePageAddr32 address pageData s
  | .buildPower mode => Sys2Proof.Machine.execBuildPower mode s
  | .buildSetTime seconds nanoseconds => Sys2Proof.Machine.execBuildSetTime seconds nanoseconds s
  | .buildByteCount => Sys2Proof.Machine.execBuildByteCount s
  | .buildClear => Sys2Proof.Machine.execBuildClear s
  -- the Frame Decoder (43_frame_decoder.md)
  | .describe frame => Sys2Proof.Machine.execDescribe frame s

end Sys2Proof.Machine
end

