-- ==== Sys2Proof/Machine/Step.lean ====
section
/-! DEFINITION. One step: one host operation (00_scope.md R6). The block has no program counter and
fetches nothing (10_state.md R22, 20_memory.md R67): the host's oldest operation is what runs. -/

namespace Sys2Proof.Machine

/-- One step: take the oldest operation the host has issued, decode it, run it. Bytes that are no
operation have no step and leave the state as it is (30_encoding.md R91, 60_exceptions.md R257). -/
def step (s : State) : Host.Outcome State Fault Refusal :=
  match s.pendingOps with
  | [] => .refused .noOperation
  | op :: rest =>
    match decodeOp op with
    | .error e => .refused (.notAnOperation e)
    | .ok i => exec i (takeOperation s rest)

/-- The state that runs an opcode-table word next. A host_op row's operation stands first in the
host's queue. A tab_frame row's frame is in `rx_buf`, completed, no reply pending, and a REPLY_GEN of
zeros stands first in the queue (log entries 2 and 11). -/
def State.withFetchWord (s : State) (nbits w : Nat) : State :=
  let bs := tableBytes nbits w
  if isSelector (bs.headD 0) then { s with pendingOps := tableOperation bs :: s.pendingOps }
  else
    { s with
      rxState := .complete
      rxBuf := Memory.zero.writeBytes 0 (tableFrame bs)
      rxCursor := BitVec.ofNat 9 (tableFrame bs).length
      rxEnd := BitVec.ofNat 9 (tableFrame bs).length
      txPending := false
      pendingOps := tableOperation [0x04] :: s.pendingOps }

end Sys2Proof.Machine
end

