-- ==== Sys2Proof/Safety.lean ====
section
/-! DEFINITION. The terms the claims are stated in: which units an operation leaves alone, sequences of
operations, legal frames, what the transport sends, and the invariant of the block. -/

namespace Sys2Proof.Machine

/-! ## What stays the same -/

/-- The Receive Parser's registers and buffer are as before. -/
abbrev SameRx (s t : State) : Prop :=
  t.rxState = s.rxState ∧ t.rxBuf = s.rxBuf ∧ t.rxCursor = s.rxCursor ∧ t.rxEnd = s.rxEnd

/-- The Reply Generator's registers and buffer are as before. -/
abbrev SameRpg (s t : State) : Prop :=
  t.txBuf = s.txBuf ∧ t.txPending = s.txPending ∧ t.rpgStatus = s.rpgStatus

/-- The accumulator is as before. -/
abbrev SameAcc (s t : State) : Prop := t.accBuf = s.accBuf ∧ t.accCount = s.accCount

/-- The Command Builder's registers and buffer are as before. -/
abbrev SameCmb (s t : State) : Prop :=
  t.cmbBuf = s.cmbBuf ∧ t.cmbValid = s.cmbValid ∧ t.cmbOpcode = s.cmbOpcode ∧ t.cmbStatus = s.cmbStatus

/-- The opcode assignment and the host's queue are as before. -/
abbrev SameHost (s t : State) : Prop := t.opcodes = s.opcodes ∧ t.pendingOps = s.pendingOps

/-- Only the Receive Parser may differ. -/
abbrev OnlyRx (s t : State) : Prop :=
  SameRpg s t ∧ SameAcc s t ∧ SameCmb s t ∧ SameHost s t ∧ t.output = s.output

/-- Only the Reply Generator may differ. -/
abbrev OnlyRpg (s t : State) : Prop :=
  SameRx s t ∧ SameAcc s t ∧ SameCmb s t ∧ SameHost s t ∧ t.output = s.output

/-- Only the Command Builder may differ. -/
abbrev OnlyCmb (s t : State) : Prop :=
  SameRx s t ∧ SameRpg s t ∧ SameAcc s t ∧ SameHost s t ∧ t.output = s.output

/-- Only what the operation returns may differ. -/
abbrev OnlyOutput (s t : State) : Prop :=
  SameRx s t ∧ SameRpg s t ∧ SameAcc s t ∧ SameCmb s t ∧ SameHost s t

/-- Two buffers read alike at every index but those of `changed`. -/
abbrev SameBytesBut (changed : Nat → Prop) (m m' : Memory) : Prop :=
  ∀ a, ¬ changed a → m'.read a = m.read a

/-- FEED stored `b` at `offset` and went to `q`; the cursors and all else are as before
(40_receive_parser.md R102 to R110). -/
abbrev ByteStored (offset : Nat) (b : Byte) (q : RxState) (s t : State) : Prop :=
  t.rxState = q ∧ t.rxBuf.read offset = b ∧ SameBytesBut (fun a => a = offset) s.rxBuf t.rxBuf ∧
    t.rxCursor = s.rxCursor ∧ t.rxEnd = s.rxEnd ∧ OnlyRx s t

/-- The parser was cleared, by RX_CLEAR or a hard reset, and nothing else changed
(40_receive_parser.md R101, R113). -/
abbrev ParserCleared (s t : State) : Prop :=
  t.rxState = .awaitMarker0 ∧ (∀ a, t.rxBuf.read a = 0) ∧ t.rxCursor = 0 ∧ t.rxEnd = 0 ∧ OnlyRx s t

/-! ## Sequences of operations -/

/-- Run instructions one after the other (20_memory.md R63). -/
def execAll : List Instr → State → Answer
  | [], s => .next s
  | i :: is, s =>
    match exec i s with
    | .next t => execAll is t
    | .fault r => .fault r
    | .refused r => .refused r

/-- FEED a sequence of wire bytes, in arrival order. -/
def feedAll (bs : List Byte) (s : State) : Answer := execAll (bs.map Instr.feed) s

/-! ## Frames -/

/-- A legal frame: markers, L at least 6, L + 3 bytes (40_receive_parser.md R116). -/
abbrev LegalFrame (bs : List Byte) : Prop :=
  bs.getD 0 0 = MARKER0 ∧ bs.getD 1 0 = MARKER1 ∧ LEN_MIN ≤ (bs.getD 2 0).toNat ∧
    bs.length = frameEnd (bs.getD 2 0)

/-- A buffer begins with a legal frame. -/
abbrev HoldsLegalFrame (m : Memory) : Prop :=
  m.read 0 = MARKER0 ∧ m.read 1 = MARKER1 ∧ LEN_MIN ≤ (m.read 2).toNat

/-- The bytes a transport must send from a buffer: `buf[0..buf[2]+3)` (70_reset_and_hazards.md R286). -/
def sentBytes (m : Memory) : List Byte := m.readBytes 0 (frameEnd (m.read 2))

/-- The parser awaits marker 0 with a zero buffer. -/
abbrev ParserIdle (s : State) : Prop := s.rxState = .awaitMarker0 ∧ ∀ a, s.rxBuf.read a = 0

/-- The parser holds exactly this complete frame (40_receive_parser.md R116). -/
abbrev ParserHolds (bs : List Byte) (s : State) : Prop :=
  s.rxState = .complete ∧ s.rxBuf.readBytes 0 bs.length = bs ∧ ∀ a, bs.length ≤ a → s.rxBuf.read a = 0

/-- REPLY_GEN's precondition: a complete frame and no reply pending (41_reply_generator.md R130). -/
abbrev ReadyToReply (s : State) : Prop := s.rxState = .complete ∧ s.txPending = false

/-- The inbound frame in `rx_buf` is `f`, of the opcode named (41_reply_generator.md R130), under an
assignment that obeys 30_encoding.md R81. -/
abbrev InboundIs (n : OpName) (f : Frame) (s : State) : Prop :=
  s.opcodes.wf ∧ s.rxBuf.read 8 = s.opcodes.valueOf n ∧ frameAt s.rxBuf.read = f

/-- `tx_buf` is the reply to `f` of this length byte, opcode and payload, zero beyond it, and the reply
is pending with status OK (41_reply_generator.md R131, R132). -/
abbrev ReplyIs (f : Frame) (rlen rop : Byte) (payload : List Byte) (t : State) : Prop :=
  t.txBuf.readBytes 0 9 = [0x22, 0x69, rlen, f.hwId.extractLsb' 0 8, f.hwId.extractLsb' 8 8,
    f.msgId.extractLsb' 0 8, f.msgId.extractLsb' 8 8, swapRoute f.route, rop] ∧
  t.txBuf.readBytes 9 payload.length = payload ∧
  (∀ a, 9 + payload.length ≤ a → t.txBuf.read a = 0) ∧
  t.txPending = true ∧ t.rpgStatus = .ok

/-! ## The Command Builder's setters -/

/-- The opcode each setter accepts (42_command_builder.md R174); none for what is no setter. -/
def setterOpcode : Instr → Option OpName
  | .ack _ => none
  | .nack _ => none
  | .debug _ => none
  | .data _ _ => none
  | .writeExt _ => none
  | .eraseSectorExt _ => none
  | .readExt _ => none
  | .blAck _ => none
  | .blNack _ => none
  | .blPing _ => none
  | .blErase _ => none
  | .blWritePage _ => none
  | .blWritePageAddr32 _ => none
  | .blJump _ => none
  | .power _ => none
  | .getTelem _ => none
  | .getTime _ _ _ => none
  | .reboot _ => none
  | .setTime _ => none
  | .telem _ => none
  | .feed _ => none
  | .rxClear => none
  | .rxQuery => none
  | .replyGen _ _ _ => none
  | .replyTake => none
  | .buildNew _ _ _ _ _ => none
  | .buildDebug _ => some .debug
  | .buildData _ => some .data
  | .buildWriteExt _ _ _ => some .writeExt
  | .buildEraseSectorExt _ _ => some .eraseSectorExt
  | .buildReadExt _ _ _ => some .readExt
  | .buildWritePage _ _ => some .blWritePage
  | .buildWritePageAddr32 _ _ => some .blWritePageAddr32
  | .buildPower _ => some .power
  | .buildSetTime _ _ => some .setTime
  | .buildByteCount => none
  | .buildClear => none
  | .describe _ => none

/-- The operation is refused with a status: the status register and nothing else (00_scope.md R13). -/
abbrev RefusedWith (e : Status) (i : Instr) (s : State) : Prop := exec i s = .next { s with cmbStatus := e }

/-- `CheckSetter(expected)` fails as 42_command_builder.md R173 says, in its order. -/
abbrev ChecksSetter (expected : OpName) (i : Instr) (s : State) : Prop :=
  (s.cmbValid = false → RefusedWith .noCommand i s) ∧
  (s.cmbValid = true → s.cmbOpcode ≠ s.opcodes.valueOf expected → RefusedWith .invalidOperation i s)

/-- `CheckSetter(expected)` passes. -/
abbrev AcceptsSetter (expected : OpName) (s : State) : Prop :=
  s.cmbValid = true ∧ s.cmbOpcode = s.opcodes.valueOf expected

/-- The operations of the Command Builder (42_command_builder.md). -/
def isBuilderOp : Instr → Bool
  | .ack _ => false
  | .nack _ => false
  | .debug _ => false
  | .data _ _ => false
  | .writeExt _ => false
  | .eraseSectorExt _ => false
  | .readExt _ => false
  | .blAck _ => false
  | .blNack _ => false
  | .blPing _ => false
  | .blErase _ => false
  | .blWritePage _ => false
  | .blWritePageAddr32 _ => false
  | .blJump _ => false
  | .power _ => false
  | .getTelem _ => false
  | .getTime _ _ _ => false
  | .reboot _ => false
  | .setTime _ => false
  | .telem _ => false
  | .feed _ => false
  | .rxClear => false
  | .rxQuery => false
  | .replyGen _ _ _ => false
  | .replyTake => false
  | .buildNew _ _ _ _ _ => true
  | .buildDebug _ => true
  | .buildData _ => true
  | .buildWriteExt _ _ _ => true
  | .buildEraseSectorExt _ _ => true
  | .buildReadExt _ _ _ => true
  | .buildWritePage _ _ => true
  | .buildWritePageAddr32 _ _ => true
  | .buildPower _ => true
  | .buildSetTime _ _ => true
  | .buildByteCount => true
  | .buildClear => true
  | .describe _ => false

/-- A setter that wrote `n` payload bytes and the length byte changed no other byte of `cmb_buf`,
keeps the constructed opcode and answers OK (42_command_builder.md R175). -/
abbrev SetterWrote (n : Nat) (s t : State) : Prop :=
  SameBytesBut (fun a => a = 2 ∨ 9 ≤ a ∧ a < 9 + n) s.cmbBuf t.cmbBuf ∧
  t.cmbValid = s.cmbValid ∧ t.cmbOpcode = s.cmbOpcode ∧ t.cmbStatus = .ok ∧ OnlyCmb s t

/-! ## The invariant -/

/-- The bytes stored so far, the third column of 10_state.md R23. -/
def bytesStored (s : State) : Nat :=
  match s.rxState with
  | .awaitMarker0 => 0
  | .awaitMarker1 => 1
  | .awaitLength => 2
  | .awaitHwIdLow => 3
  | .awaitHwIdHigh => 4
  | .awaitMsgIdLow => 5
  | .awaitMsgIdHigh => 6
  | .awaitRoute => 7
  | .awaitOpcode => 8
  | .awaitPayload => s.rxCursor.toNat
  | .complete => s.rxEnd.toNat

/-- The parser's cursors, clauses (b) to (e) of 10_state.md R28. In Complete the length byte is at
least 6, which (e) and the legal values of `rx_end` (R26) give. -/
def CursorsAgree (s : State) : Prop :=
  match s.rxState with
  | .awaitMarker0 | .awaitMarker1 | .awaitLength => s.rxCursor = 0 ∧ s.rxEnd = 0
  | .awaitHwIdLow | .awaitHwIdHigh | .awaitMsgIdLow | .awaitMsgIdHigh | .awaitRoute | .awaitOpcode =>
    s.rxCursor.toNat = 9 ∧ s.rxEnd.toNat = frameEnd (s.rxBuf.read 2) ∧ LEN_MIN ≤ (s.rxBuf.read 2).toNat
  | .awaitPayload =>
    9 ≤ s.rxCursor.toNat ∧ s.rxCursor.toNat < s.rxEnd.toNat ∧ s.rxEnd.toNat = frameEnd (s.rxBuf.read 2) ∧
      s.rxEnd.toNat ≤ FRAME_CAP
  | .complete =>
    s.rxCursor = s.rxEnd ∧ s.rxEnd.toNat = frameEnd (s.rxBuf.read 2) ∧ s.rxBuf.read 0 = MARKER0 ∧
      s.rxBuf.read 1 = MARKER1 ∧ LEN_MIN ≤ (s.rxBuf.read 2).toNat

/-- 10_state.md R28: the invariants of the Receive Parser. -/
structure ParserInv (s : State) : Prop where
  /-- R28(a) -/
  zeroBeyond : ∀ a, bytesStored s ≤ a → s.rxBuf.read a = 0
  /-- R28(b) to (e) -/
  cursors : CursorsAgree s
  /-- R28(f) -/
  marker0 : 1 ≤ bytesStored s → s.rxBuf.read 0 = MARKER0
  /-- R28(f) -/
  marker1 : 2 ≤ bytesStored s → s.rxBuf.read 1 = MARKER1

/-- A buffer is in the canonical form and inside its capacity (20_memory.md R60). -/
abbrev Memory.ok (m : Memory) (cap : Nat) : Prop := m.wf ∧ m.within cap

/-- The invariant of the block: the parser's (10_state.md R28), every buffer canonical and inside its
capacity (20_memory.md R60), `acc_count` and the status registers at legal values (10_state.md R33,
R39), and a pending reply a legal frame (41_reply_generator.md R160(a)). -/
structure Inv (s : State) : Prop where
  parser : ParserInv s
  rxOk : s.rxBuf.ok FRAME_CAP
  txOk : s.txBuf.ok FRAME_CAP
  accOk : s.accBuf.ok ACC_CAP
  cmbOk : s.cmbBuf.ok FRAME_CAP
  accCount : s.accCount.toNat ≤ ACC_CAP
  rpgStatus : s.rpgStatus = .ok ∨ s.rpgStatus = .unsupportedOpcode ∨ s.rpgStatus = .notReady
  cmbStatus : s.cmbStatus ≠ .unsupportedOpcode ∧ s.cmbStatus ≠ .notReady
  reply : s.txPending = true → HoldsLegalFrame s.txBuf

end Sys2Proof.Machine
end

