-- ==== Sys2Proof/Certificates/Slice0/Obligations.lean ====
section
/-! DEFINITION. The statements about the TAB frame engine, for the provers. -/

open Sys2Proof Sys2Proof.Machine

/-! ## Encodings -/

/-- Bytes written out from 30_encoding.md R90's table (operand bytes as log entry 3 lays them) decode
to the operations they stand for. -/
def Obligations.WrittenOperationBytesDecode : Prop :=
  decodeOp [0x01, 0x22] = .ok (.feed 0x22) ∧
  decodeOp [0x02] = .ok .rxClear ∧
  decodeOp [0x05] = .ok .replyTake ∧
  decodeOp [0x06, 0x11, 0x34, 0x12, 0x78, 0x56, 0x02, 0x00] = .ok (.buildNew 0x11 0x1234 0x5678 2 0) ∧
  decodeOp [0x07, 0x68, 0x69] = .ok (.buildDebug [0x68, 0x69]) ∧
  decodeOp [0x09, 0x00, 0x01, 0x00, 0x00, 0xAA, 0xBB, 0x00] = .ok (.buildWriteExt 0x00000100 [0xAA, 0xBB] 0) ∧
  decodeOp [0x0E, 0x08] = .ok (.buildPower 8) ∧
  decodeOp [0x11] = .ok .buildClear

/-- The NACK frame of 95_test_vectors.md S3 decodes under every assignment of the open opcodes, and
S2's DEBUG frame under the test assignment of 93_implementation_defined.md I1. -/
def Obligations.WrittenFrameBytesDecode : Prop :=
  (∀ m a c d, decodeFrame m a c d [0x22, 0x69, 0x06, 0x34, 0x12, 0x78, 0x56, 0x20, 0xff] =
    .ok (.nack { length := 6, hwId := 0x1234, msgId := 0x5678, route := 0x20, payload := [] })) ∧
  (∀ a c d, decodeFrame OpcodeMap.testInstance a c d
      [0x22, 0x69, 0x08, 0x34, 0x12, 0x78, 0x56, 0x20, 0x11, 0x68, 0x69] =
    .ok (.debug { length := 8, hwId := 0x1234, msgId := 0x5678, route := 0x20, payload := [0x68, 0x69] }))

/-- 30_encoding.md R81: the twenty values are pairwise distinct bytes, NACK's is 0xff; it holds of the
build's assignment, which is the one at reset (log entry 1). -/
def Obligations.OpcodeValuesAreDistinct : Prop :=
  State.reset.opcodes.wf ∧ (∀ m : OpcodeMap, m.valueOf .nack = 0xff) ∧
  ∀ m : OpcodeMap, m.wf ↔ ∀ a b, m.valueOf a = m.valueOf b → a = b

/-- No bit of a host operation's bytes is dropped: decoding what encode gives is the operation. -/
def Obligations.OperationsDecodeAfterEncode : Prop :=
  ∀ (m : OpcodeMap) (i : Instr), i.frame? = none → decodeOp (encode m i) = .ok i

/-- No bit of a frame is dropped (30_encoding.md R70 to R74): every well-formed TAB instruction is an
opcode with a frame and the inputs its rule reads, and decoding its frame beside those inputs gives
it back, under every assignment that obeys R81. -/
def Obligations.FramesDecodeAfterEncode : Prop :=
  ∀ (m : OpcodeMap) (i : Instr) (n : OpName) (f : Frame), m.wf → i.frame? = some (n, f) → i.wf = true →
    ∃ a c d, i = Instr.ofFrame n f a c d ∧ decodeFrame m a c d (encode m i) = .ok i

/-- An operation's bytes have one meaning: what decodes is what encode writes. -/
def Obligations.OperationsEncodeAfterDecode : Prop :=
  ∀ (m : OpcodeMap) (bs : List Byte) (i : Instr), decodeOp bs = .ok i → encode m i = bs ∧ i.frame? = none

/-- A frame's bytes have one meaning, and only legal frames decode (30_encoding.md R70 to R72). -/
def Obligations.FramesEncodeAfterDecode : Prop :=
  ∀ (m : OpcodeMap) (a : Bool) (c : Clock) (d : TimeDraw) (bs : List Byte) (i : Instr),
    decodeFrame m a c d bs = .ok i → encode m i = bs ∧ LegalFrame bs ∧ i.wf = true

/-! ## One step -/

/-- A step runs the decoded operation: when the host's oldest operation decodes to an instruction, the
step is that instruction's meaning in the state with the operation taken from the queue and nothing
returned yet; with no operation issued there is no step (00_scope.md R6, R18, log entries 2 and 4). -/
def Obligations.StepRunsTheOldestOperation : Prop :=
  (∀ (s : State) (op : List Byte) (rest : List (List Byte)) (i : Instr),
    s.pendingOps = op :: rest → decodeOp op = .ok i →
      step s = exec i { s with pendingOps := rest, output := .none }) ∧
  (∀ s : State, s.pendingOps = [] → step s = .refused .noOperation)

/-- 30_encoding.md R91: the selectors that select no operation have no step (operations as log entries
2 and 3 lay them). -/
def Obligations.ReservedSelectorsHaveNoStep : Prop :=
  ∀ (s : State) (selector : Byte) (ops : List Byte) (rest : List (List Byte)),
    s.pendingOps = (selector :: ops) :: rest →
    selector.toNat = 0 ∨ (0x13 ≤ selector.toNat ∧ selector.toNat ≤ 0x1F) →
      step s = .refused (.notAnOperation (.reservedSelector selector))

/-- An operand outside its range has no step: a CLOCK of 10^9 nanoseconds or more, a DESCRIBE operand
that is not 258 bytes, a node id above 15, an APPLY that is no bit (60_exceptions.md R257; the bytes
are laid as log entry 3 says). -/
def Obligations.OperandsOutOfRangeHaveNoStep : Prop :=
  (∀ (s : State) (rest : List (List Byte)) (ap : Byte) (sec : BitVec 64) (ns : BitVec 32) (draw : TimeDraw),
    s.pendingOps = (0x04 :: ap :: (bytesLE64 sec ++ bytesLE32 ns ++ draw.toList)) :: rest →
    (1000000000 ≤ ns.toNat ∨ 2 ≤ ap.toNat) → step s = .refused (.notAnOperation .operandOutOfRange)) ∧
  (∀ (s : State) (rest : List (List Byte)) (frame : List Byte),
    s.pendingOps = (0x12 :: frame) :: rest → frame.length ≠ 258 →
      step s = .refused (.notAnOperation .operandOutOfRange)) ∧
  (∀ (s : State) (rest : List (List Byte)) (op h0 h1 g0 g1 src dst : Byte),
    s.pendingOps = [0x06, op, h0, h1, g0, g1, src, dst] :: rest → (16 ≤ src.toNat ∨ 16 ≤ dst.toNat) →
      step s = .refused (.notAnOperation .operandOutOfRange))

/-! ## Reset and what the host reads -/

/-- 10_state.md R43: the value of every piece of the spec's state after reset. -/
def Obligations.ResetLeavesTheSpecifiedState : Prop :=
  State.reset.rxState = .awaitMarker0 ∧ (∀ a, State.reset.rxBuf.read a = 0x00) ∧
  State.reset.rxCursor = 0 ∧ State.reset.rxEnd = 0 ∧
  (∀ a, State.reset.txBuf.read a = 0x00) ∧ State.reset.txPending = false ∧ State.reset.rpgStatus = .ok ∧
  (∀ a, State.reset.accBuf.read a = 0x00) ∧ State.reset.accCount = 0 ∧
  (∀ a, State.reset.cmbBuf.read a = 0x00) ∧ State.reset.cmbValid = false ∧ State.reset.cmbOpcode = 0x00 ∧
  State.reset.cmbStatus = .ok ∧ rxComplete State.reset = false

/-- The numbers the host reads: parser states as 10_state.md R23 codes them, status codes as
60_exceptions.md R241 codes them. -/
def Obligations.StatesAndStatusesHaveTheirNumbers : Prop :=
  ∀ s : State,
    ([RxState.awaitMarker0, .awaitMarker1, .awaitLength, .awaitHwIdLow, .awaitHwIdHigh, .awaitMsgIdLow,
      .awaitMsgIdHigh, .awaitRoute, .awaitOpcode, .awaitPayload, .complete].map
        (fun q => hostRead { s with rxState := q } .rxState) = [0, 1, 2, 3, 4, 5, 6, 7, 8, 9, 10]) ∧
    ([Status.ok, .invalidOperation, .payloadTooLarge, .unknownMode, .invalidPageSize, .unsupportedOpcode,
      .notReady, .noCommand].map (fun e => hostRead { s with rpgStatus := e } .rpgStatus) =
        [0, 1, 2, 3, 4, 5, 6, 7]) ∧
    ([Status.ok, .invalidOperation, .payloadTooLarge, .unknownMode, .invalidPageSize, .unsupportedOpcode,
      .notReady, .noCommand].map (fun e => hostRead { s with cmbStatus := e } .cmbStatus) =
        [0, 1, 2, 3, 4, 5, 6, 7])

/-! ## The Receive Parser -/

/-- 40_receive_parser.md R102. -/
def Obligations.FeedInAwaitMarker0 : Prop :=
  ∀ (b : Byte) (s : State), s.rxState = .awaitMarker0 →
    (b = 0x22 → ∃ t, exec (.feed b) s = .next t ∧ ByteStored 0 b .awaitMarker1 s t) ∧
    (b ≠ 0x22 → exec (.feed b) s = .next s)

/-- 40_receive_parser.md R103, with the hard reset of R101 that consumes the byte. -/
def Obligations.FeedInAwaitMarker1 : Prop :=
  ∀ (b : Byte) (s : State), s.rxState = .awaitMarker1 →
    ∃ t, exec (.feed b) s = .next t ∧
      (b = 0x69 → ByteStored 1 b .awaitLength s t) ∧ (b ≠ 0x69 → ParserCleared s t)

/-- 40_receive_parser.md R104. -/
def Obligations.FeedInAwaitLength : Prop :=
  ∀ (b : Byte) (s : State), s.rxState = .awaitLength →
    ∃ t, exec (.feed b) s = .next t ∧
      (6 ≤ b.toNat → t.rxState = .awaitHwIdLow ∧ t.rxBuf.read 2 = b ∧
        SameBytesBut (fun a => a = 2) s.rxBuf t.rxBuf ∧ t.rxCursor.toNat = 9 ∧
        t.rxEnd.toNat = b.toNat + 3 ∧ OnlyRx s t) ∧
      (b.toNat < 6 → ParserCleared s t)

/-- 40_receive_parser.md R105 to R109: each header byte at its offset, every value accepted. -/
def Obligations.FeedStoresTheHeaderBytes : Prop :=
  ∀ (b : Byte) (s : State),
    (s.rxState = .awaitHwIdLow → ∃ t, exec (.feed b) s = .next t ∧ ByteStored 3 b .awaitHwIdHigh s t) ∧
    (s.rxState = .awaitHwIdHigh → ∃ t, exec (.feed b) s = .next t ∧ ByteStored 4 b .awaitMsgIdLow s t) ∧
    (s.rxState = .awaitMsgIdLow → ∃ t, exec (.feed b) s = .next t ∧ ByteStored 5 b .awaitMsgIdHigh s t) ∧
    (s.rxState = .awaitMsgIdHigh → ∃ t, exec (.feed b) s = .next t ∧ ByteStored 6 b .awaitRoute s t) ∧
    (s.rxState = .awaitRoute → ∃ t, exec (.feed b) s = .next t ∧ ByteStored 7 b .awaitOpcode s t)

/-- 40_receive_parser.md R110. -/
def Obligations.FeedInAwaitOpcode : Prop :=
  ∀ (b : Byte) (s : State), s.rxState = .awaitOpcode →
    ∃ t, exec (.feed b) s = .next t ∧
      (s.rxCursor.toNat < s.rxEnd.toNat → ByteStored 8 b .awaitPayload s t) ∧
      (s.rxEnd.toNat ≤ s.rxCursor.toNat → ByteStored 8 b .complete s t ∧ rxComplete t = true)

/-- 40_receive_parser.md R111, `rx_cursor` inside the buffer as 10_state.md R28(d) says it is. -/
def Obligations.FeedInAwaitPayload : Prop :=
  ∀ (b : Byte) (s : State), s.rxState = .awaitPayload → s.rxCursor.toNat < 258 →
    ∃ t, exec (.feed b) s = .next t ∧ t.rxBuf.read s.rxCursor.toNat = b ∧
      SameBytesBut (fun a => a = s.rxCursor.toNat) s.rxBuf t.rxBuf ∧
      t.rxCursor.toNat = s.rxCursor.toNat + 1 ∧ t.rxEnd = s.rxEnd ∧
      (s.rxCursor.toNat + 1 = s.rxEnd.toNat → t.rxState = .complete) ∧
      (s.rxCursor.toNat + 1 ≠ s.rxEnd.toNat → t.rxState = .awaitPayload) ∧ OnlyRx s t

/-- 40_receive_parser.md R112. -/
def Obligations.FeedInCompleteIsIgnored : Prop :=
  ∀ (b : Byte) (s : State), s.rxState = .complete → exec (.feed b) s = .next s

/-- 40_receive_parser.md R113. -/
def Obligations.RxClearClearsTheParser : Prop :=
  ∀ s : State, ∃ t, exec .rxClear s = .next t ∧ ParserCleared s t ∧ rxComplete t = false

/-- 40_receive_parser.md R114. -/
def Obligations.RxQueryReturnsCompletion : Prop :=
  ∀ s : State, ∃ t, exec .rxQuery s = .next t ∧ OnlyOutput s t ∧
    (s.rxState = .complete → t.output = .rxComplete true) ∧
    (s.rxState ≠ .complete → t.output = .rxComplete false)

/-- 40_receive_parser.md R118 with R115: in a state that meets the parser's invariant every FEED takes
one step, keeps that invariant, and reports nothing to any other unit. -/
def Obligations.EveryFeedTakesOneStep : Prop :=
  ∀ (b : Byte) (s : State), ParserInv s → ∃ t, exec (.feed b) s = .next t ∧ ParserInv t ∧ OnlyRx s t

/-- 40_receive_parser.md R116, which the spec infers from R102 to R111: an idle parser fed a legal frame completes on its last byte, not before,
and holds exactly that frame. -/
def Obligations.LegalFrameReachesComplete : Prop :=
  ∀ (frame : List Byte) (s : State), LegalFrame frame → ParserIdle s →
    (∃ t, feedAll frame s = .next t ∧ ParserHolds frame t ∧ OnlyRx s t) ∧
    ∀ k, k < frame.length → ∃ t, feedAll (frame.take k) s = .next t ∧ t.rxState ≠ .complete

/-- 40_receive_parser.md R117, which the spec infers from R102 and R103: noise without a 0x22 before a legal frame changes nothing; with the
noise [0x22] the wider statement is false. -/
def Obligations.NoiseWithoutMarkerIsSkipped : Prop :=
  (∀ (noise frame : List Byte) (s : State), (∀ b ∈ noise, b ≠ 0x22) → LegalFrame frame → ParserIdle s →
    ∃ t, feedAll (noise ++ frame) s = .next t ∧ feedAll frame s = .next t) ∧
  ∀ s : State, ParserIdle s → ∃ frame, LegalFrame frame ∧ feedAll ([0x22] ++ frame) s ≠ feedAll frame s

/-- 40_receive_parser.md R101, R103 and 90_conflicts.md C1: a 0x22 right before a frame that holds no
other 0x22 loses the frame. -/
def Obligations.MarkerByteBeforeAFrameLosesIt : Prop :=
  ∀ (frame : List Byte) (s : State), LegalFrame frame → (∀ b ∈ frame.tail, b ≠ 0x22) → ParserIdle s →
    ∃ t, feedAll (0x22 :: frame) s = .next t ∧ ParserIdle t

/-! ## The Reply Generator

A TAB opcode's own instruction is the arm REPLY_GEN runs for it (log entry 5); each statement about one
says the same of REPLY_GEN on that frame. -/

/-- 41_reply_generator.md R130's checks and its dispatch: NotReady first and nothing else changes, then
the arm of the opcode in `rx_buf[8]`; each TAB instruction makes the same NotReady check. -/
def Obligations.ReplyGenRunsTheInboundFrame : Prop :=
  ∀ (s : State) (n : OpName) (f : Frame) (a : Bool) (c : Clock) (d : TimeDraw),
    (s.rxState ≠ .complete ∨ s.txPending = true →
      exec (.replyGen a c d) s = .next { s with rpgStatus := .notReady } ∧
      exec (Instr.ofFrame n f a c d) s = .next { s with rpgStatus := .notReady }) ∧
    (ReadyToReply s → InboundIs n f s → exec (.replyGen a c d) s = exec (Instr.ofFrame n f a c d) s)

/-- 41_reply_generator.md R155. -/
def Obligations.UnassignedOpcodeGetsNoReply : Prop :=
  ∀ (s : State) (a : Bool) (c : Clock) (d : TimeDraw), ReadyToReply s →
    (∀ n, s.opcodes.valueOf n ≠ s.rxBuf.read 8) →
      exec (.replyGen a c d) s = .next { s with rpgStatus := .unsupportedOpcode }

/-- 41_reply_generator.md R135 and R136: an inbound ACK is answered ACK, an inbound NACK is answered
NACK (0xff), nine bytes each; REPLY_GEN does so when that frame is in `rx_buf`. -/
def Obligations.AckAndNackFramesAreAnswered : Prop :=
  ∀ (f : Frame) (s : State), ReadyToReply s →
    (∃ t, exec (.ack f) s = .next t ∧ ReplyIs f 6 (s.opcodes.valueOf .ack) [] t ∧ OnlyRpg s t ∧
      (InboundIs .ack f s → ∀ a c d, exec (.replyGen a c d) s = .next t)) ∧
    (∃ t, exec (.nack f) s = .next t ∧ ReplyIs f 6 0xff [] t ∧ OnlyRpg s t ∧
      (InboundIs .nack f s → ∀ a c d, exec (.replyGen a c d) s = .next t))

/-- 41_reply_generator.md R139 to R148: the extended flash and the bootloader opcodes are answered
with the common NACK. -/
def Obligations.FlashAndBootloaderFramesAreNacked : Prop :=
  ∀ (f : Frame) (s : State) (n : OpName) (i : Instr), ReadyToReply s →
    (n, i) ∈ [(OpName.writeExt, Instr.writeExt f), (.eraseSectorExt, .eraseSectorExt f),
      (.readExt, .readExt f), (.blAck, .blAck f), (.blNack, .blNack f), (.blPing, .blPing f),
      (.blErase, .blErase f), (.blWritePage, .blWritePage f),
      (.blWritePageAddr32, .blWritePageAddr32 f), (.blJump, .blJump f)] →
    ∃ t, exec i s = .next t ∧ ReplyIs f 6 0xff [] t ∧ OnlyRpg s t ∧
      (InboundIs n f s → ∀ a c d, exec (.replyGen a c d) s = .next t)

/-- 41_reply_generator.md R152 to R154: REBOOT, SET_TIME and TELEM are not serviceable inbound. -/
def Obligations.RebootSetTimeAndTelemFramesAreNacked : Prop :=
  ∀ (f : Frame) (s : State) (n : OpName) (i : Instr), ReadyToReply s →
    (n, i) ∈ [(OpName.reboot, Instr.reboot f), (.setTime, .setTime f), (.telem, .telem f)] →
    ∃ t, exec i s = .next t ∧ ReplyIs f 6 0xff [] t ∧ OnlyRpg s t ∧
      (InboundIs n f s → ∀ a c d, exec (.replyGen a c d) s = .next t)

/-- 41_reply_generator.md R137: the payload is echoed verbatim, with the inbound length. -/
def Obligations.DebugFrameIsEchoed : Prop :=
  ∀ (f : Frame) (s : State), f.wf → ReadyToReply s →
    ∃ t, exec (.debug f) s = .next t ∧ ReplyIs f f.length (s.opcodes.valueOf .debug) f.payload t ∧
      OnlyRpg s t ∧ (InboundIs .debug f s → ∀ a c d, exec (.replyGen a c d) s = .next t)

/-- 41_reply_generator.md R138: the payload goes to the accumulator from index 0, the bytes after it
stay, and the collaborator's answer selects ACK or NACK, with status OK either way. -/
def Obligations.DataFrameFillsTheAccumulator : Prop :=
  ∀ (f : Frame) (apply : Bool) (s : State), f.wf → ReadyToReply s →
    ∃ t, exec (.data f apply) s = .next t ∧
      ReplyIs f 6 (if apply then s.opcodes.valueOf .ack else 0xff) [] t ∧
      t.accBuf.readBytes 0 f.payload.length = f.payload ∧
      (∀ k, f.payload.length ≤ k → t.accBuf.read k = s.accBuf.read k) ∧
      t.accCount.toNat = f.payload.length ∧
      SameRx s t ∧ SameCmb s t ∧ SameHost s t ∧
      (InboundIs .data f s → ∀ c d, exec (.replyGen apply c d) s = .next t)

/-- 41_reply_generator.md R138's invocation of the collaborator, in the model's own terms (log entry 4):
an accepted DATA frame shows it exactly the payload, and nothing else shows it anything. -/
def Obligations.DataFrameInvokesTheCollaborator : Prop :=
  (∀ (f : Frame) (apply : Bool) (s : State), f.wf → ReadyToReply s →
    ∃ t, exec (.data f apply) s = .next t ∧ t.output = .applied f.payload) ∧
  ∀ (i : Instr) (s t : State) (bytes : List Byte), exec i s = .next t → t.output = .applied bytes →
    s.output ≠ .applied bytes → ReadyToReply s ∧
      ((∃ f a, i = .data f a) ∨ (s.rxBuf.read 8 = s.opcodes.valueOf .data ∧ ∃ a c d, i = .replyGen a c d))

/-- 41_reply_generator.md R149: the one NACK with a payload, the reason code 0x01. -/
def Obligations.PowerFrameIsNackedWithAReason : Prop :=
  ∀ (f : Frame) (s : State), ReadyToReply s →
    ∃ t, exec (.power f) s = .next t ∧ ReplyIs f 7 0xff [0x01] t ∧ OnlyRpg s t ∧
      (InboundIs .power f s → ∀ a c d, exec (.replyGen a c d) s = .next t)

/-- 41_reply_generator.md R150: 78 payload bytes, all zero. -/
def Obligations.GetTelemFrameGetsAZeroStub : Prop :=
  ∀ (f : Frame) (s : State), ReadyToReply s →
    ∃ t, exec (.getTelem f) s = .next t ∧
      ReplyIs f 0x54 (s.opcodes.valueOf .telem) (List.replicate 78 0) t ∧ OnlyRpg s t ∧
      (InboundIs .getTelem f s → ∀ a c d, exec (.replyGen a c d) s = .next t)

/-- 41_reply_generator.md R151 and R158: for a reading at or after 2000-01-01T11:58:55.816Z the reply
carries the exact difference, the seconds modulo 2^32 (and non-negative read signed, up to 2^31 - 1 of
them); for a reading before it the eight bytes are TIME_DRAW, whatever they are. The epoch's POSIX value
is the spec's own ("from general knowledge, not in source", log entry 12). -/
def Obligations.GetTimeFrameCarriesTheTime : Prop :=
  ∀ (f : Frame) (clock : Clock) (draw : TimeDraw) (s : State), ReadyToReply s →
    ∃ t payload, exec (.getTime f clock draw) s = .next t ∧ payload.length = 8 ∧
      ReplyIs f 0x0e (s.opcodes.valueOf .setTime) payload t ∧ OnlyRpg s t ∧
      (clock.sec.toNat * 10 ^ 9 + clock.ns.val < 946727935816000000 → payload = draw.toList) ∧
      (∀ e, clock.sec.toNat * 10 ^ 9 + clock.ns.val = 946727935816000000 + e →
        (rdLE32 t.txBuf.read 9).toNat = e / 10 ^ 9 % 2 ^ 32 ∧
        (rdLE32 t.txBuf.read 13).toNat = e % 10 ^ 9 ∧
        (e / 10 ^ 9 ≤ 2 ^ 31 - 1 → 0 ≤ (rdLE32 t.txBuf.read 9).toInt)) ∧
      (InboundIs .getTime f s → ∀ a, exec (.replyGen a clock draw) s = .next t)

/-- 41_reply_generator.md R156. -/
def Obligations.ReplyTakeClearsThePendingReply : Prop :=
  ∀ s : State,
    (s.txPending = true → ∃ t, exec .replyTake s = .next t ∧ t.txPending = false ∧ t.rpgStatus = .ok ∧
      t.txBuf = s.txBuf ∧ OnlyRpg s t) ∧
    (s.txPending = false → exec .replyTake s = .next { s with rpgStatus := .notReady })

/-- 41_reply_generator.md R133: the swap exchanges the nibbles and undoes itself. -/
def Obligations.RouteSwapIsAnInvolution : Prop :=
  ∀ r : Byte, (swapRoute r).toNat = (r.toNat % 16) * 16 + r.toNat / 16 ∧ swapRoute (swapRoute r) = r ∧
    routeSrc (swapRoute r) = routeDst r ∧ routeDst (swapRoute r) = routeSrc r

/-- 41_reply_generator.md R160(a) to (c): every reply REPLY_GEN accepts begins `22 69`, has a length
byte of at least 6, carries the inbound id bytes and the swapped route, and has one of five opcodes. -/
def Obligations.EveryReplyCarriesTheInboundHeader : Prop :=
  ∀ (s t : State) (a : Bool) (c : Clock) (d : TimeDraw), Inv s → ReadyToReply s →
    (∃ n, s.opcodes.valueOf n = s.rxBuf.read 8) → exec (.replyGen a c d) s = .next t →
      HoldsLegalFrame t.txBuf ∧ t.txBuf.read 3 = s.rxBuf.read 3 ∧ t.txBuf.read 4 = s.rxBuf.read 4 ∧
      t.txBuf.read 5 = s.rxBuf.read 5 ∧ t.txBuf.read 6 = s.rxBuf.read 6 ∧
      t.txBuf.read 7 = swapRoute (s.rxBuf.read 7) ∧
      ∃ n ∈ [OpName.ack, .nack, .debug, .telem, .setTime], t.txBuf.read 8 = s.opcodes.valueOf n

/-- 41_reply_generator.md R160(d): what the transport sends of a reply, fed to an idle parser of any
instance, completes there with the same bytes. -/
def Obligations.RepliesCompleteAnotherParser : Prop :=
  ∀ (s t u : State) (a : Bool) (c : Clock) (d : TimeDraw), Inv s → ReadyToReply s →
    (∃ n, s.opcodes.valueOf n = s.rxBuf.read 8) → exec (.replyGen a c d) s = .next t → ParserIdle u →
      ∃ v, feedAll (sentBytes t.txBuf) u = .next v ∧ ParserHolds (sentBytes t.txBuf) v

/-! ## The Command Builder -/

/-- 42_command_builder.md R170 and R171: the header, the default length, zero beyond, whatever was
there before; every opcode byte is accepted. -/
def Obligations.BuildNewConstructsACommand : Prop :=
  ∀ (opcode : Byte) (hwId msgId : BitVec 16) (src dst : BitVec 4) (s : State),
    ∃ t len, exec (.buildNew opcode hwId msgId src dst) s = .next t ∧
      t.cmbBuf.readBytes 0 9 = [0x22, 0x69, len, hwId.extractLsb' 0 8, hwId.extractLsb' 8 8,
        msgId.extractLsb' 0 8, msgId.extractLsb' 8 8, src ++ dst, opcode] ∧
      (∀ a, 9 ≤ a → t.cmbBuf.read a = 0) ∧
      t.cmbOpcode = opcode ∧ t.cmbValid = true ∧ t.cmbStatus = .ok ∧ OnlyCmb s t ∧
      (s.opcodes.wf → ∀ n, s.opcodes.valueOf n = opcode →
        (n ∈ [OpName.writeExt, .eraseSectorExt, .readExt] → len = 0x0b) ∧
        (n ∈ [OpName.blWritePage, .power] → len = 0x07) ∧ (n = .blWritePageAddr32 → len = 0x0a) ∧
        (n = .setTime → len = 0x0e) ∧
        (n ∉ [OpName.writeExt, .eraseSectorExt, .readExt, .blWritePage, .power, .blWritePageAddr32,
          .setTime] → len = 0x06)) ∧
      ((∀ n, s.opcodes.valueOf n ≠ opcode) → len = 0x06)

/-- 42_command_builder.md R173 and R174: each setter checks NoCommand, then its own opcode, before
anything else, and a check that fails changes the status alone; a setter whose opcode was constructed
is refused by neither check. -/
def Obligations.SettersCheckTheConstructedOpcode : Prop :=
  ∀ (i : Instr) (n : OpName) (s : State), setterOpcode i = some n → ChecksSetter n i s ∧
    (AcceptsSetter n s → ∃ t, exec i s = .next t ∧
      t.cmbStatus ∈ [Status.ok, .payloadTooLarge, .invalidPageSize, .unknownMode])

/-- 42_command_builder.md R176 and R177. -/
def Obligations.BuildDebugAndDataWriteThePayload : Prop :=
  ∀ (bytes : List Byte) (s : State) (n : OpName) (i : Instr),
    (n, i) ∈ [(OpName.debug, Instr.buildDebug bytes), (.data, .buildData bytes)] →
    ChecksSetter n i s ∧
    (AcceptsSetter n s → 249 < bytes.length → RefusedWith .payloadTooLarge i s) ∧
    (AcceptsSetter n s → bytes.length ≤ 249 → ∃ t, exec i s = .next t ∧
      t.cmbBuf.readBytes 9 bytes.length = bytes ∧ (t.cmbBuf.read 2).toNat = 6 + bytes.length ∧
      SetterWrote bytes.length s t)

/-- 42_command_builder.md R178: flash_id, the address big-endian, the data. -/
def Obligations.BuildWriteExtWritesThePayload : Prop :=
  ∀ (address : BitVec 32) (data : List Byte) (flashId : Byte) (s : State),
    ChecksSetter .writeExt (.buildWriteExt address data flashId) s ∧
    (AcceptsSetter .writeExt s → 244 < data.length →
      RefusedWith .payloadTooLarge (.buildWriteExt address data flashId) s) ∧
    (AcceptsSetter .writeExt s → data.length ≤ 244 →
      ∃ t, exec (.buildWriteExt address data flashId) s = .next t ∧
        t.cmbBuf.readBytes 9 5 = [flashId, address.extractLsb' 24 8, address.extractLsb' 16 8,
          address.extractLsb' 8 8, address.extractLsb' 0 8] ∧
        t.cmbBuf.readBytes 14 data.length = data ∧ (t.cmbBuf.read 2).toNat = 0x0b + data.length ∧
        SetterWrote (5 + data.length) s t)

/-- 42_command_builder.md R179 and R180. -/
def Obligations.BuildEraseAndReadExtWriteThePayload : Prop :=
  ∀ (address : BitVec 32) (dataLength flashId : Byte) (s : State),
    ChecksSetter .eraseSectorExt (.buildEraseSectorExt address flashId) s ∧
    ChecksSetter .readExt (.buildReadExt address dataLength flashId) s ∧
    (AcceptsSetter .eraseSectorExt s → ∃ t, exec (.buildEraseSectorExt address flashId) s = .next t ∧
      t.cmbBuf.readBytes 9 5 = [flashId, address.extractLsb' 24 8, address.extractLsb' 16 8,
        address.extractLsb' 8 8, address.extractLsb' 0 8] ∧
      t.cmbBuf.read 2 = 0x0b ∧ SetterWrote 5 s t) ∧
    (AcceptsSetter .readExt s → ∃ t, exec (.buildReadExt address dataLength flashId) s = .next t ∧
      t.cmbBuf.readBytes 9 6 = [flashId, address.extractLsb' 24 8, address.extractLsb' 16 8,
        address.extractLsb' 8 8, address.extractLsb' 0 8, dataLength] ∧
      t.cmbBuf.read 2 = 0x0c ∧ SetterWrote 6 s t)

/-- 42_command_builder.md R181 and R182. -/
def Obligations.BuildPagesWriteThePayload : Prop :=
  ∀ (pageNumber : Byte) (address : BitVec 32) (pageData : List Byte) (s : State),
    ChecksSetter .blWritePage (.buildWritePage pageNumber pageData) s ∧
    ChecksSetter .blWritePageAddr32 (.buildWritePageAddr32 address pageData) s ∧
    (AcceptsSetter .blWritePage s → pageData.length ≠ 128 →
      RefusedWith .invalidPageSize (.buildWritePage pageNumber pageData) s) ∧
    (AcceptsSetter .blWritePageAddr32 s → pageData.length ≠ 128 →
      RefusedWith .invalidPageSize (.buildWritePageAddr32 address pageData) s) ∧
    (AcceptsSetter .blWritePage s → pageData.length = 128 →
      ∃ t, exec (.buildWritePage pageNumber pageData) s = .next t ∧ t.cmbBuf.read 9 = pageNumber ∧
        t.cmbBuf.readBytes 10 128 = pageData ∧ t.cmbBuf.read 2 = 0x87 ∧ SetterWrote 129 s t) ∧
    (AcceptsSetter .blWritePageAddr32 s → pageData.length = 128 →
      ∃ t, exec (.buildWritePageAddr32 address pageData) s = .next t ∧
        t.cmbBuf.readBytes 9 4 = [address.extractLsb' 24 8, address.extractLsb' 16 8,
          address.extractLsb' 8 8, address.extractLsb' 0 8] ∧
        t.cmbBuf.readBytes 13 128 = pageData ∧ t.cmbBuf.read 2 = 0x8a ∧ SetterWrote 132 s t)

/-- 42_command_builder.md R184. -/
def Obligations.BuildPowerWritesTheMode : Prop :=
  ∀ (mode : Byte) (s : State),
    ChecksSetter .power (.buildPower mode) s ∧
    (AcceptsSetter .power s → 8 < mode.toNat → RefusedWith .unknownMode (.buildPower mode) s) ∧
    (AcceptsSetter .power s → mode.toNat ≤ 8 → ∃ t, exec (.buildPower mode) s = .next t ∧
      t.cmbBuf.read 9 = mode ∧ t.cmbBuf.read 2 = 0x07 ∧ SetterWrote 1 s t)

/-- 42_command_builder.md R185: both fields little-endian, no range check. -/
def Obligations.BuildSetTimeWritesTheTime : Prop :=
  ∀ (seconds nanoseconds : BitVec 32) (s : State),
    ChecksSetter .setTime (.buildSetTime seconds nanoseconds) s ∧
    (AcceptsSetter .setTime s → ∃ t, exec (.buildSetTime seconds nanoseconds) s = .next t ∧
      t.cmbBuf.readBytes 9 8 = [seconds.extractLsb' 0 8, seconds.extractLsb' 8 8,
        seconds.extractLsb' 16 8, seconds.extractLsb' 24 8, nanoseconds.extractLsb' 0 8,
        nanoseconds.extractLsb' 8 8, nanoseconds.extractLsb' 16 8, nanoseconds.extractLsb' 24 8] ∧
      t.cmbBuf.read 2 = 0x0e ∧ SetterWrote 8 s t)

/-- 42_command_builder.md R186: a pure read. -/
def Obligations.BuildByteCountReturnsLengthPlusThree : Prop :=
  ∀ s : State, ∃ t count, exec .buildByteCount s = .next t ∧ t.output = .byteCount count ∧
    count.toNat = (s.cmbBuf.read 2).toNat + 3 ∧ OnlyOutput s t

/-- 42_command_builder.md R187: the buffer is zero, the constructed opcode survives. -/
def Obligations.BuildClearZeroesTheCommand : Prop :=
  ∀ s : State, ∃ t, exec .buildClear s = .next t ∧ (∀ a, t.cmbBuf.read a = 0) ∧
    t.cmbOpcode = s.cmbOpcode ∧ t.cmbValid = s.cmbValid ∧ t.cmbStatus = .ok ∧ OnlyCmb s t

/-- 42_command_builder.md R183, which the spec infers from R175 and R187: no setter writes bytes 0, 1 or 3 to 8 of the buffer, so a setter after
BUILD_CLEAR leaves them zero. -/
def Obligations.SettersLeaveTheHeaderAlone : Prop :=
  ∀ (i : Instr) (s t : State) (a : Nat), (setterOpcode i).isSome = true → exec i s = .next t →
    a < 9 → a ≠ 2 → t.cmbBuf.read a = s.cmbBuf.read a ∧
      ∀ u v, exec .buildClear s = .next u → exec i u = .next v → v.cmbBuf.read a = 0

/-- 42_command_builder.md R172: a builder operation writes no other unit, and what it does to the
builder and what it returns depend on the builder and the opcode assignment alone. -/
def Obligations.BuilderIsIndependentOfTheOtherUnits : Prop :=
  ∀ (i : Instr) (s s' t : State), isBuilderOp i = true → exec i s = .next t →
    SameRx s t ∧ SameRpg s t ∧ SameAcc s t ∧ SameHost s t ∧
    (SameCmb s s' → s'.opcodes = s.opcodes → s'.output = s.output →
      ∃ t', exec i s' = .next t' ∧ SameCmb t t' ∧ t'.output = t.output)

/-- 42_command_builder.md R188(a): after BUILD_NEW and any setters, accepted or not, the command is a
legal frame, and its bytes fed to an idle parser complete there. -/
def Obligations.BuiltCommandsCompleteAParser : Prop :=
  ∀ (opcode : Byte) (hwId msgId : BitVec 16) (src dst : BitVec 4) (setters : List Instr) (s u : State),
    (∀ i ∈ setters, (setterOpcode i).isSome = true) → ParserIdle u →
      ∃ t v, execAll (.buildNew opcode hwId msgId src dst :: setters) s = .next t ∧
        HoldsLegalFrame t.cmbBuf ∧ feedAll (sentBytes t.cmbBuf) u = .next v ∧
        ParserHolds (sentBytes t.cmbBuf) v

/-! ## The Frame Decoder -/

/-- 43_frame_decoder.md R210, R211, R212 and R217: the header fields of any 258 bytes, and no effect
on the block (R220). -/
def Obligations.DescribeGivesTheHeaderFields : Prop :=
  ∀ (frame : Vector Byte 258) (s : State), ∃ t d, exec (.describe frame) s = .next t ∧ OnlyOutput s t ∧
    t.output = .description d ∧
    (s.opcodes.wf → ∀ n, s.opcodes.valueOf n = frame[8] → d.opcodeName = some n) ∧
    ((∀ n, s.opcodes.valueOf n ≠ frame[8]) → d.opcodeName = none ∧ d.payload = .none) ∧
    d.hwId.toNat = frame[3].toNat + 256 * frame[4].toNat ∧
    d.msgId.toNat = frame[5].toNat + 256 * frame[6].toNat ∧
    (∀ k name, (k, name) ∈ [(0, NodeName.ground), (1, .comms), (2, .cdh), (3, .payload)] →
      (frame[7].toNat / 16 = k → d.src = name) ∧ (frame[7].toNat % 16 = k → d.dst = name)) ∧
    (4 ≤ frame[7].toNat / 16 → d.src = .unknown) ∧ (4 ≤ frame[7].toNat % 16 → d.dst = .unknown)

/-- 43_frame_decoder.md R213 to R216: the payload description of each opcode. The slices end at L + 3,
the page data has fixed offsets. -/
def Obligations.DescribeGivesThePayloadFields : Prop :=
  ∀ (frame : Vector Byte 258) (s t : State) (d : Description) (n : OpName), s.opcodes.wf →
    exec (.describe frame) s = .next t → t.output = .description d → s.opcodes.valueOf n = frame[8] →
    (n = .debug → d.payload = .text ((frame.toList.take (frame[2].toNat + 3)).drop 9)) ∧
    (n = .data → d.payload = .data ((frame.toList.take (frame[2].toNat + 3)).drop 9)) ∧
    (n = .writeExt → ∃ address, d.payload = .writeExt frame[9] address
        ((frame.toList.take (frame[2].toNat + 3)).drop 14) ∧
      address = frame[10] ++ frame[11] ++ frame[12] ++ frame[13]) ∧
    (n = .eraseSectorExt → ∃ address, d.payload = .eraseSectorExt frame[9] address ∧
      address = frame[10] ++ frame[11] ++ frame[12] ++ frame[13]) ∧
    (n = .readExt → ∃ address, d.payload = .readExt frame[9] address frame[14] ∧
      address = frame[10] ++ frame[11] ++ frame[12] ++ frame[13]) ∧
    (n = .blWritePage → d.payload = .writePage frame[9] ((frame.toList.take 138).drop 10)) ∧
    (n = .blWritePageAddr32 → ∃ address, d.payload = .writePageAddr32 address
        ((frame.toList.take 141).drop 13) ∧
      address = frame[9] ++ frame[10] ++ frame[11] ++ frame[12]) ∧
    (n = .power → d.payload = .power frame[9]
      ([PowerMode.run, .sleep, .lowpowerrun, .lowpowersleep, .stop0, .stop1, .stop2, .standby,
        .shutdown][frame[9].toNat]?)) ∧
    (n = .setTime → ∃ seconds nanoseconds, d.payload = .time seconds nanoseconds ∧
      seconds = frame[12] ++ frame[11] ++ frame[10] ++ frame[9] ∧
      nanoseconds = frame[16] ++ frame[15] ++ frame[14] ++ frame[13]) ∧
    (n = .nack → d.payload = if 7 ≤ frame[2].toNat then .reason frame[9] else .none) ∧
    (n ∈ [OpName.ack, .getTelem, .getTime, .reboot, .telem, .blAck, .blNack, .blPing, .blErase, .blJump] →
      d.payload = .none)

/-! ## The whole machine -/

/-- 10_state.md R28, 20_memory.md R60: the invariant of the block is kept by every well-formed
instruction and by every step, from every state that meets it. -/
def Obligations.EveryStepKeepsTheInvariant : Prop :=
  (∀ (i : Instr) (s t : State), i.wf = true → Inv s → exec i s = .next t → Inv t) ∧
  (∀ s t : State, Inv s → step s = .next t → Inv t)

/-- The invariant holds at reset. -/
def Obligations.ResetMeetsTheInvariant : Prop := Inv State.reset

/-- 60_exceptions.md R240 and R257: in a state that meets the invariant no condition faults, and every
instruction completes in one step. -/
def Obligations.NothingFaultsUnderTheInvariant : Prop :=
  (∀ (i : Instr) (s : State), Inv s → ∃ t, exec i s = .next t) ∧
  (∀ (s : State) (r : Fault), Inv s → step s ≠ .fault r)

/-- 10_state.md R24, R29, R32, R34 and 20_memory.md R67: who writes each buffer, and that nothing
writes the opcode assignment. -/
def Obligations.EachBufferHasItsWriters : Prop :=
  ∀ (i : Instr) (s t : State), exec i s = .next t →
    t.opcodes = s.opcodes ∧ t.pendingOps = s.pendingOps ∧
    (t.rxBuf ≠ s.rxBuf → (∃ b, i = .feed b) ∨ i = .rxClear) ∧
    (t.txBuf ≠ s.txBuf → (∃ a c d, i = .replyGen a c d) ∨ i.frame?.isSome = true) ∧
    (t.accBuf ≠ s.accBuf ∨ t.accCount ≠ s.accCount →
      (∃ f a, i = .data f a) ∨
        (s.rxBuf.read 8 = s.opcodes.valueOf .data ∧ ∃ a c d, i = .replyGen a c d)) ∧
    (t.cmbBuf ≠ s.cmbBuf → isBuilderOp i = true)

/-- 60_exceptions.md R249 and 10_state.md R38: a status stays until the same unit's next operation
that writes status, and each flag changes only by the operations named for it. -/
def Obligations.StatusAndFlagsHaveTheirWriters : Prop :=
  ∀ (i : Instr) (s t : State), exec i s = .next t →
    (t.rpgStatus ≠ s.rpgStatus →
      i = .replyTake ∨ (∃ a c d, i = .replyGen a c d) ∨ i.frame?.isSome = true) ∧
    (t.cmbStatus ≠ s.cmbStatus → isBuilderOp i = true ∧ i ≠ .buildByteCount) ∧
    (t.txPending = true → s.txPending = false → (∃ a c d, i = .replyGen a c d) ∨ i.frame?.isSome = true) ∧
    (t.txPending = false → s.txPending = true → i = .replyTake) ∧
    (s.cmbValid = true → t.cmbValid = true) ∧
    (t.cmbValid = true → s.cmbValid = false → ∃ o h g a b, i = .buildNew o h g a b) ∧
    (rxComplete t = true → rxComplete s = false → ∃ b, i = .feed b) ∧
    (rxComplete t = false → rxComplete s = true → i = .rxClear)
end

