-- ==== Sys2Proof/Laws/Bytes.lean ====
section
/-! SUPPORT. The laws of bytes and numbers (20_memory.md R52 to R55), of the route byte, of opcode
names, and of the round trips between them. -/

namespace Sys2Proof

/-- `byteOf v k` is `v[8k+7:8k]`. -/
theorem byteOf_eq_extract {w : Nat} (v : BitVec w) (k : Nat) : byteOf v k = v.extractLsb' (8 * k) 8 := by
  apply BitVec.eq_of_toNat_eq
  simp [byteOf, Nat.shiftRight_eq_div_pow, Nat.pow_mul]

theorem num16_byteOf (v : BitVec 16) : num16 (byteOf v 0) (byteOf v 1) = v := by
  apply BitVec.eq_of_toNat_eq
  simp [num16, byteOf]
  omega

@[simp] theorem byteOf_num16_lo (lo hi : Byte) : byteOf (num16 lo hi) 0 = lo := by
  apply BitVec.eq_of_toNat_eq
  simp [num16, byteOf]
  omega

@[simp] theorem byteOf_num16_hi (lo hi : Byte) : byteOf (num16 lo hi) 1 = hi := by
  apply BitVec.eq_of_toNat_eq
  simp [num16, byteOf]
  omega

/-- `RdLE16`'s formula as 20_memory.md R52 writes it. -/
theorem toNat_num16 (lo hi : Byte) : (num16 lo hi).toNat = lo.toNat + 256 * hi.toNat := by
  simp [num16]
  omega

theorem num32_byteOf (v : BitVec 32) : num32 (byteOf v 0) (byteOf v 1) (byteOf v 2) (byteOf v 3) = v := by
  apply BitVec.eq_of_toNat_eq
  simp [num32, byteOf]
  omega

/-- `RdLE32`'s formula as 20_memory.md R54 writes it. -/
theorem toNat_num32 (b0 b1 b2 b3 : Byte) :
    (num32 b0 b1 b2 b3).toNat = b0.toNat + 2 ^ 8 * b1.toNat + 2 ^ 16 * b2.toNat + 2 ^ 24 * b3.toNat := by
  simp [num32]
  omega

@[simp] theorem bytesLE32_num32 (b0 b1 b2 b3 : Byte) : bytesLE32 (num32 b0 b1 b2 b3) = [b0, b1, b2, b3] := by
  simp only [bytesLE32, List.cons.injEq, and_true]
  refine ⟨?_, ?_, ?_, ?_⟩ <;> (apply BitVec.eq_of_toNat_eq; simp [num32, byteOf]; omega)

@[simp] theorem bytesLE16_num16 (lo hi : Byte) : bytesLE16 (num16 lo hi) = [lo, hi] := by
  simp [bytesLE16]

theorem num64_byteOf (v : BitVec 64) :
    num64 (num32 (byteOf v 0) (byteOf v 1) (byteOf v 2) (byteOf v 3))
      (num32 (byteOf v 4) (byteOf v 5) (byteOf v 6) (byteOf v 7)) = v := by
  apply BitVec.eq_of_toNat_eq
  simp [num64, toNat_num32, byteOf]
  omega

@[simp] theorem bytesLE64_num64 (b0 b1 b2 b3 b4 b5 b6 b7 : Byte) :
    bytesLE64 (num64 (num32 b0 b1 b2 b3) (num32 b4 b5 b6 b7)) = [b0, b1, b2, b3, b4, b5, b6, b7] := by
  simp only [bytesLE64, List.cons.injEq, and_true]
  refine ⟨?_, ?_, ?_, ?_, ?_, ?_, ?_, ?_⟩ <;>
    (apply BitVec.eq_of_toNat_eq; simp [num64, toNat_num32, byteOf]; omega)

@[simp] theorem length_bytesLE16 (v : BitVec 16) : (bytesLE16 v).length = 2 := rfl
@[simp] theorem length_bytesLE32 (v : BitVec 32) : (bytesLE32 v).length = 4 := rfl
@[simp] theorem length_bytesBE32 (v : BitVec 32) : (bytesBE32 v).length = 4 := rfl

/-! ## Opcode names -/

theorem OpName.mem_all (n : OpName) : n ∈ OpName.all := by
  cases n <;> decide

/-- Under R81 two opcodes of one value are one opcode. -/
theorem OpcodeMap.valueOf_inj {m : OpcodeMap} (h : m.wf) {a b : OpName} (hab : m.valueOf a = m.valueOf b) : a = b :=
  List.inj_on_of_nodup_map h (OpName.mem_all a) (OpName.mem_all b) hab

/-- Under R81 an opcode's value has that opcode's name. -/
theorem OpcodeMap.nameOf_valueOf {m : OpcodeMap} (h : m.wf) (n : OpName) : m.nameOf (m.valueOf n) = some n := by
  unfold OpcodeMap.nameOf
  cases hf : OpName.all.find? (fun k => m.valueOf k == m.valueOf n) with
  | none =>
    have := List.find?_eq_none.mp hf n (OpName.mem_all n)
    simp at this
  | some k =>
    have hk := List.find?_some hf
    exact congrArg some (OpcodeMap.valueOf_inj h (by simpa using hk))

/-- A byte's name has that byte as its value. -/
theorem OpcodeMap.valueOf_of_nameOf {m : OpcodeMap} {b : Byte} {n : OpName} (h : m.nameOf b = some n) :
    m.valueOf n = b := by
  have := List.find?_some h
  simpa using this

/-- A byte without a name is no opcode's value. -/
theorem OpcodeMap.nameOf_eq_none {m : OpcodeMap} {b : Byte} : m.nameOf b = none ↔ ∀ n, m.valueOf n ≠ b := by
  unfold OpcodeMap.nameOf
  rw [List.find?_eq_none]
  constructor
  · intro h n
    simpa using h n (OpName.mem_all n)
  · intro h n _
    simpa using h n

theorem OpcodeMap.testInstance_wf : OpcodeMap.testInstance.wf := by decide

/-- The build's assignment obeys R81. -/
theorem Config.opcodes_wf : Config.opcodes.wf := by
  unfold Config.opcodes
  split
  · assumption
  · exact OpcodeMap.testInstance_wf

namespace Machine

/-! ## The route byte -/

@[simp] theorem routeSrc_packRoute (src dst : BitVec 4) : routeSrc (packRoute src dst) = src := by
  apply BitVec.eq_of_toNat_eq
  simp [routeSrc, packRoute]
  omega

@[simp] theorem routeDst_packRoute (src dst : BitVec 4) : routeDst (packRoute src dst) = dst := by
  apply BitVec.eq_of_toNat_eq
  simp [routeDst, packRoute]
  omega

theorem packRoute_routeSrc_routeDst (r : Byte) : packRoute (routeSrc r) (routeDst r) = r := by
  apply BitVec.eq_of_toNat_eq
  simp [routeSrc, routeDst, packRoute]
  omega

/-- The swap exchanges the node ids (41_reply_generator.md R133). -/
theorem swapRoute_eq_packRoute (r : Byte) : swapRoute r = packRoute (routeDst r) (routeSrc r) := by
  have hr := r.isLt
  have h : r.toNat / 16 % 16 = r.toNat / 16 := Nat.mod_eq_of_lt (by omega)
  apply BitVec.eq_of_toNat_eq
  simp [routeSrc, routeDst, packRoute, swapRoute, h]

end Machine

end Sys2Proof
end

