-- ==== Sys2Proof/Laws/Memory.lean ====
section
/-! SUPPORT. The laws of the buffers: read after write, the canonical form, slices. -/

namespace Sys2Proof.Machine

variable {m : Memory} {a b n e cap : Nat} {v : Byte} {bs : List Byte}

@[simp] theorem Memory.read_nil (a : Nat) : Memory.read [] a = 0 := rfl

@[simp] theorem Memory.read_zero (a : Nat) : Memory.zero.read a = 0 := rfl

theorem Memory.read_insert (c : Host.Cell) (m : Memory) (h : ∀ d ∈ m, d.1 ≠ c.1) (a : Nat) :
    (Memory.insert c m).read a = if a = c.1 then c.2 else m.read a := by
  induction m with
  | nil => simp [Memory.insert, Memory.read]
  | cons d m ih =>
    have hd : d.1 ≠ c.1 := h d (by simp)
    have ih := ih (fun x hx => h x (by simp [hx]))
    unfold Memory.insert
    split
    · simp [Memory.read]
    · by_cases hc : a = c.1
      · subst hc
        simpa [Memory.read, Ne.symm hd] using ih
      · simp [Memory.read, ih, hc]

theorem Memory.read_erase (m : Memory) (a b : Nat) :
    Memory.read (m.filter (fun c => c.1 != a)) b = if b = a then 0 else m.read b := by
  induction m with
  | nil => simp
  | cons d m ih =>
    by_cases hd : d.1 = a
    · rw [List.filter_cons_of_neg (by simp [hd]), ih]
      by_cases hb : b = a <;> simp [hb, Memory.read, hd]
    · rw [List.filter_cons_of_pos (by simp [hd])]
      simp only [Memory.read, ih]
      by_cases hb : b = a
      · subst hb
        simp [Ne.symm hd]
      · simp [hb]

/-- Reading after a write: the value written there, the old value elsewhere. -/
theorem Memory.read_write (m : Memory) (a : Nat) (v : Byte) (b : Nat) :
    (m.write a v).read b = if b = a then v else m.read b := by
  unfold Memory.write
  by_cases hv : v = 0
  · simp [hv, Memory.read_erase]
  · simp only [hv, if_false]
    rw [Memory.read_insert]
    · by_cases hb : b = a <;> simp [hb, Memory.read_erase]
    · intro d hd
      simpa using (List.mem_filter.mp hd).2

@[simp] theorem Memory.read_write_self (m : Memory) (a : Nat) (v : Byte) : (m.write a v).read a = v := by
  simp [Memory.read_write]

theorem Memory.read_write_of_ne (h : b ≠ a) : (m.write a v).read b = m.read b := by
  simp [Memory.read_write, h]

/-- Reading after a sequence of bytes is written. -/
theorem Memory.read_writeBytes (m : Memory) (a : Nat) (bs : List Byte) (b : Nat) :
    (m.writeBytes a bs).read b = if a ≤ b ∧ b < a + bs.length then bs.getD (b - a) 0 else m.read b := by
  induction bs generalizing m a with
  | nil =>
    have : ¬ (a ≤ b ∧ b < a) := by omega
    simp [Memory.writeBytes, this]
  | cons x bs ih =>
    simp only [Memory.writeBytes, ih, Memory.read_write, List.length_cons]
    by_cases h1 : a + 1 ≤ b ∧ b < a + 1 + bs.length
    · have h2 : a ≤ b ∧ b < a + (bs.length + 1) := by omega
      have h3 : b - a = (b - (a + 1)) + 1 := by omega
      simp [h1, h2, h3]
    · by_cases h4 : b = a
      · subst h4
        simp
      · have h5 : ¬ (a ≤ b ∧ b < a + (bs.length + 1)) := by omega
        rw [if_neg h1, if_neg h4, if_neg h5]

theorem Memory.read_writeBytes_outside (h : b < a ∨ a + bs.length ≤ b) :
    (m.writeBytes a bs).read b = m.read b := by
  rw [Memory.read_writeBytes, if_neg (by omega)]

/-- Writing two sequences one behind the other is writing their concatenation. -/
theorem Memory.writeBytes_append (m : Memory) (a : Nat) (bs cs : List Byte) :
    m.writeBytes a (bs ++ cs) = (m.writeBytes a bs).writeBytes (a + bs.length) cs := by
  induction bs generalizing m a with
  | nil => simp [Memory.writeBytes]
  | cons x bs ih =>
    simp only [Memory.writeBytes, List.cons_append, List.length_cons, ih]
    congr 1
    omega

/-! ## Slices -/

@[simp] theorem length_slice (f : Nat → Byte) (a e : Nat) : (slice f a e).length = e - a := by
  simp [slice]

@[simp] theorem length_readBytes (m : Memory) (a n : Nat) : (m.readBytes a n).length = n := by
  simp [Memory.readBytes]

theorem getElem_slice (f : Nat → Byte) {k : Nat} (h : k < (slice f a e).length) :
    (slice f a e)[k] = f (a + k) := by
  simp [slice]

theorem slice_congr {f g : Nat → Byte} (h : ∀ i, a ≤ i → i < e → f i = g i) : slice f a e = slice g a e := by
  apply List.ext_getElem (by simp)
  intro k h1 h2
  rw [getElem_slice, getElem_slice]
  exact h _ (by omega) (by simp at h1; omega)

theorem slice_empty {f : Nat → Byte} (h : e ≤ a) : slice f a e = [] := by
  simp [slice, Nat.sub_eq_zero_of_le h]

/-- A sequence is what a reader gives from `a` on exactly when they agree byte by byte. -/
theorem readBytes_eq_iff : m.readBytes a bs.length = bs ↔ ∀ k, k < bs.length → m.read (a + k) = bs.getD k 0 := by
  constructor
  · intro h k hk
    have h2 := congrArg (fun l => l.getD k 0) h
    simp only [Memory.readBytes] at h2
    rw [← h2]
    simp [slice, List.getD, hk]
  · intro h
    apply List.ext_getElem (by simp)
    intro k h1 h2
    simp only [Memory.readBytes, getElem_slice]
    rw [h k h2]
    simp [List.getD, h2]

theorem readBytes_writeBytes_self : (m.writeBytes a bs).readBytes a bs.length = bs := by
  rw [readBytes_eq_iff]
  intro k hk
  rw [Memory.read_writeBytes, if_pos (by omega)]
  simp

/-! ## The canonical form -/

theorem Memory.wf_zero : Memory.zero.wf := by simp [Memory.zero, Memory.wf]

theorem Memory.within_zero : Memory.zero.within cap := by simp [Memory.zero, Memory.within]

theorem Memory.mem_insert {c d : Host.Cell} : d ∈ Memory.insert c m ↔ d = c ∨ d ∈ m := by
  induction m with
  | nil => simp [Memory.insert]
  | cons x m ih =>
    unfold Memory.insert
    split
    · simp
    · simp only [List.mem_cons, ih]
      tauto

theorem Memory.pairwise_insert {c : Host.Cell} (h : m.Pairwise (fun x y => x.1 < y.1)) (hc : ∀ d ∈ m, d.1 ≠ c.1) :
    (Memory.insert c m).Pairwise (fun x y => x.1 < y.1) := by
  induction m with
  | nil => simp [Memory.insert]
  | cons x m ih =>
    rw [List.pairwise_cons] at h
    unfold Memory.insert
    split
    · rename_i hlt
      rw [List.pairwise_cons]
      refine ⟨fun y hy => ?_, List.pairwise_cons.mpr h⟩
      rcases List.mem_cons.mp hy with rfl | hy
      · exact hlt
      · exact Nat.lt_trans hlt (h.1 y hy)
    · rename_i hlt
      rw [List.pairwise_cons]
      refine ⟨fun y hy => ?_, ih h.2 (fun d hd => hc d (by simp [hd]))⟩
      rcases Memory.mem_insert.mp hy with rfl | hy
      · have := hc x (by simp)
        omega
      · exact h.1 y hy

/-- A write keeps the canonical form. -/
theorem Memory.wf_write (h : m.wf) : (m.write a v).wf := by
  have hf : Memory.wf (m.filter (fun c => c.1 != a)) :=
    ⟨h.1.filter _, fun c hc => h.2 c (List.mem_filter.mp hc).1⟩
  unfold Memory.write
  by_cases hv : v = 0
  · simpa [hv] using hf
  · simp only [hv, if_false]
    refine ⟨Memory.pairwise_insert hf.1 (fun d hd => by simpa using (List.mem_filter.mp hd).2), fun c hc => ?_⟩
    rcases Memory.mem_insert.mp hc with rfl | hc
    · exact hv
    · exact hf.2 c hc

/-- A write inside the capacity stays inside it. -/
theorem Memory.within_write (h : m.within cap) (ha : a < cap) : (m.write a v).within cap := by
  unfold Memory.write
  by_cases hv : v = 0
  · intro c hc
    simp only [hv, if_true] at hc
    exact h c (List.mem_filter.mp hc).1
  · intro c hc
    simp only [hv, if_false] at hc
    rcases Memory.mem_insert.mp hc with rfl | hc
    · exact ha
    · exact h c (List.mem_filter.mp hc).1

theorem Memory.wf_writeBytes (h : m.wf) : (m.writeBytes a bs).wf := by
  induction bs generalizing m a with
  | nil => exact h
  | cons x bs ih => exact ih (Memory.wf_write h)

theorem Memory.within_writeBytes (h : m.within cap) (ha : a + bs.length ≤ cap) :
    (m.writeBytes a bs).within cap := by
  induction bs generalizing m a with
  | nil => exact h
  | cons x bs ih =>
    simp only [List.length_cons] at ha
    exact ih (Memory.within_write h (by omega)) (by omega)

theorem Memory.read_eq_zero_of_not_mem (h : ∀ c ∈ m, c.1 ≠ a) : m.read a = 0 := by
  induction m with
  | nil => rfl
  | cons d m ih =>
    have := h d (by simp)
    simp [Memory.read, Ne.symm this, ih (fun c hc => h c (by simp [hc]))]

/-- An index outside the capacity reads 0x00. -/
theorem Memory.read_outside (h : m.within cap) (ha : cap ≤ a) : m.read a = 0 :=
  Memory.read_eq_zero_of_not_mem (fun c hc => by have := h c hc; omega)

/-- Two canonical buffers that read alike everywhere are the same data. -/
theorem Memory.ext_of_wf {m m' : Memory} (h : m.wf) (h' : m'.wf) (hr : ∀ a, m.read a = m'.read a) : m = m' := by
  induction m generalizing m' with
  | nil =>
    cases m' with
    | nil => rfl
    | cons d m' =>
      have := hr d.1
      simp [Memory.read] at this
      exact absurd this.symm (h'.2 d (by simp))
  | cons c m ih =>
    cases m' with
    | nil =>
      have := hr c.1
      simp [Memory.read] at this
      exact absurd this (h.2 c (by simp))
    | cons d m' =>
      obtain ⟨hp, hz⟩ := h
      obtain ⟨hp', hz'⟩ := h'
      rw [List.pairwise_cons] at hp hp'
      have hcd : c.1 = d.1 := by
        rcases Nat.lt_trichotomy c.1 d.1 with hlt | heq | hgt
        · have h1 := hr c.1
          rw [Memory.read_eq_zero_of_not_mem (m := d :: m')] at h1
          · simp [Memory.read] at h1
            exact absurd h1 (hz c (by simp))
          · intro x hx
            rcases List.mem_cons.mp hx with rfl | hx
            · omega
            · have := hp'.1 x hx
              omega
        · exact heq
        · have h1 := hr d.1
          rw [Memory.read_eq_zero_of_not_mem (m := c :: m)] at h1
          · simp [Memory.read] at h1
            exact absurd h1.symm (hz' d (by simp))
          · intro x hx
            rcases List.mem_cons.mp hx with rfl | hx
            · omega
            · have := hp.1 x hx
              omega
      have hv : c.2 = d.2 := by
        have := hr c.1
        simpa [Memory.read, hcd] using this
      have hrest : m = m' := by
        refine ih ⟨hp.2, fun x hx => hz x (by simp [hx])⟩ ⟨hp'.2, fun x hx => hz' x (by simp [hx])⟩ (fun a => ?_)
        by_cases ha : a = c.1
        · rw [ha, Memory.read_eq_zero_of_not_mem (fun x hx => by have := hp.1 x hx; omega),
            Memory.read_eq_zero_of_not_mem (fun x hx => by have := hp'.1 x hx; omega)]
        · have := hr a
          simpa [Memory.read, ha, ← hcd] using this
      rw [hrest, Prod.ext hcd hv]

/-- A canonical buffer that reads zero everywhere is the zero buffer. -/
theorem Memory.eq_zero_of_wf (h : m.wf) (hr : ∀ a, m.read a = 0) : m = Memory.zero :=
  Memory.ext_of_wf h Memory.wf_zero (fun a => by simp [hr])

end Sys2Proof.Machine
end

