-- ==== Sys2Proof/Laws/Builder.lean ====
section
/-! SUPPORT. What the Command Builder can do, once: the shape of a setter, each setter as `setter`,
what its payload write reads as. -/

namespace Sys2Proof.Machine

variable {n : OpName} {arg : Option Status} {w : Memory → Memory} {s t : State}

/-! ## The shape of a setter -/

theorem setter_noCommand (h : s.cmbValid = false) :
    setter n arg w s = .next { s with cmbStatus := .noCommand } := by
  simp [setter, h, raiseCmb]

theorem setter_invalidOperation (h : s.cmbValid = true) (ho : s.cmbOpcode ≠ s.opcodes.valueOf n) :
    setter n arg w s = .next { s with cmbStatus := .invalidOperation } := by
  simp [setter, h, ho, raiseCmb]

theorem setter_badArgument {e : Status} (h : AcceptsSetter n s) :
    setter n (some e) w s = .next { s with cmbStatus := e } := by
  simp [setter, h.1, h.2, raiseCmb]

theorem setter_accepted (h : AcceptsSetter n s) :
    setter n none w s = .next { s with cmbBuf := w s.cmbBuf, cmbStatus := .ok } := by
  simp [setter, h.1, h.2]

@[simp] theorem checkArgument_true (e : Status) : checkArgument true e = none := rfl
@[simp] theorem checkArgument_false (e : Status) : checkArgument false e = some e := rfl

/-- Everything a setter can do. -/
theorem setter_cases (h : setter n arg w s = .next t) :
    (∃ e, t = { s with cmbStatus := e } ∧ (e = .noCommand ∨ e = .invalidOperation ∨ arg = some e)) ∨
      (AcceptsSetter n s ∧ arg = none ∧ t = { s with cmbBuf := w s.cmbBuf, cmbStatus := .ok }) := by
  unfold setter raiseCmb at h
  split at h
  · exact .inl ⟨_, (Host.Outcome.next.inj h).symm, .inl rfl⟩
  · rename_i hv
    split at h
    · exact .inl ⟨_, (Host.Outcome.next.inj h).symm, .inr (.inl rfl)⟩
    · rename_i ho
      split at h
      · rename_i _ e
        exact .inl ⟨e, (Host.Outcome.next.inj h).symm, .inr (.inr rfl)⟩
      · exact .inr ⟨⟨by simpa using hv, by simpa using ho⟩, rfl, (Host.Outcome.next.inj h).symm⟩

/-- Every setter is `setter` of its own opcode, with an argument check and a payload that fits behind
the header. -/
theorem exec_setter {i : Instr} (h : setterOpcode i = some n) :
    ∃ arg payload, (∀ s, exec i s = setter n arg (putPayload payload) s) ∧
      (arg = none → payload.length ≤ PAYLOAD_CAP) ∧
      ∀ e, arg = some e → e = .payloadTooLarge ∨ e = .invalidPageSize ∨ e = .unknownMode := by
  cases i <;> simp only [setterOpcode, reduceCtorEq, Option.some.injEq] at h <;> subst h
  case buildDebug | buildData | buildWriteExt | buildWritePage | buildWritePageAddr32 | buildPower =>
    refine ⟨_, _, fun _ => rfl, ?_, ?_⟩ <;>
      simp [checkArgument, PAYLOAD_CAP, WRITE_EXT_CAP, PAGE_SIZE] <;> omega
  case buildEraseSectorExt | buildReadExt | buildSetTime =>
    exact ⟨none, _, fun _ => rfl, by simp [bytesBE32, bytesLE32, PAYLOAD_CAP], by simp⟩

/-! ## What a setter writes -/

theorem read_putPayload (p : List Byte) (m : Memory) (a : Nat) :
    (putPayload p m).read a =
      if a = 2 then BitVec.ofNat 8 (HDR_AFTER_LEN + p.length)
      else if 9 ≤ a ∧ a < 9 + p.length then p.getD (a - 9) 0 else m.read a := by
  simp [putPayload, Memory.read_write, Memory.read_writeBytes]

theorem toNat_length_putPayload {p : List Byte} (m : Memory) (h : p.length ≤ PAYLOAD_CAP) :
    ((putPayload p m).read 2).toNat = 6 + p.length := by
  rw [read_putPayload, if_pos rfl]
  have : p.length ≤ 249 := h
  simp [HDR_AFTER_LEN]
  omega

theorem readBytes_putPayload (p : List Byte) (m : Memory) : (putPayload p m).readBytes 9 p.length = p := by
  rw [readBytes_eq_iff]
  intro k hk
  rw [read_putPayload, if_neg (by omega), if_pos (by omega)]
  simp

/-- An accepted setter's frame, in the terms of the claims. -/
theorem setterWrote_putPayload (p : List Byte) (s : State) :
    SetterWrote p.length s { s with cmbBuf := putPayload p s.cmbBuf, cmbStatus := .ok } := by
  refine ⟨fun a ha => ?_, rfl, rfl, rfl, ⟨rfl, rfl, rfl, rfl⟩, ⟨rfl, rfl, rfl⟩, ⟨rfl, rfl⟩, ⟨rfl, rfl⟩, rfl⟩
  rw [read_putPayload, if_neg (fun h => ha (.inl h)), if_neg (fun h => ha (.inr h))]

/-! ## What BUILD_NEW writes -/

theorem read_newCommand (m : OpcodeMap) (opcode : Byte) (hwId msgId : BitVec 16) (src dst : BitVec 4) (a : Nat) :
    (newCommand m opcode hwId msgId src dst).read a =
      [MARKER0, MARKER1, defaultLen (m.nameOf opcode), byteOf hwId 0, byteOf hwId 1, byteOf msgId 0,
        byteOf msgId 1, packRoute src dst, opcode].getD a 0 := by
  rcases Nat.lt_or_ge a 9 with h | h
  · interval_cases a <;>
      simp [newCommand, wrLE16, bytesLE16, Memory.read_writeBytes]
  · have h7 : ¬ (7 ≤ a ∧ a < 9) := by omega
    have h5 : ¬ (5 ≤ a ∧ a < 7) := by omega
    have h3 : ¬ (3 ≤ a ∧ a < 5) := by omega
    have h0 : ¬ (a < 3) := by omega
    have hg : ∀ l : List Byte, l.length = 9 → l.getD a 0 = 0 := fun l hl => by
      rw [List.getD_eq_getElem?_getD, List.getElem?_eq_none (by omega)]; rfl
    rw [hg _ rfl]
    simp [newCommand, wrLE16, bytesLE16, Memory.read_writeBytes, h7, h5, h3, h0]

theorem toNat_defaultLen (n : Option OpName) : 6 ≤ (defaultLen n).toNat := by
  cases n with
  | none => decide
  | some n => cases n <;> decide

end Sys2Proof.Machine
end

