-- ==== Sys2Proof/Laws/State.lean ====
section
/-! SUPPORT. One lemma per field of State per named update, each true by rfl, so that no later proof
unfolds a record update. -/

namespace Sys2Proof.Machine

/-! ## clearParser -/

@[simp] theorem clearParser_opcodes (s : State) : (clearParser s).opcodes = s.opcodes := rfl
@[simp] theorem clearParser_rxState (s : State) : (clearParser s).rxState = .awaitMarker0 := rfl
@[simp] theorem clearParser_rxBuf (s : State) : (clearParser s).rxBuf = Memory.zero := rfl
@[simp] theorem clearParser_rxCursor (s : State) : (clearParser s).rxCursor = 0 := rfl
@[simp] theorem clearParser_rxEnd (s : State) : (clearParser s).rxEnd = 0 := rfl
@[simp] theorem clearParser_txBuf (s : State) : (clearParser s).txBuf = s.txBuf := rfl
@[simp] theorem clearParser_txPending (s : State) : (clearParser s).txPending = s.txPending := rfl
@[simp] theorem clearParser_rpgStatus (s : State) : (clearParser s).rpgStatus = s.rpgStatus := rfl
@[simp] theorem clearParser_accBuf (s : State) : (clearParser s).accBuf = s.accBuf := rfl
@[simp] theorem clearParser_accCount (s : State) : (clearParser s).accCount = s.accCount := rfl
@[simp] theorem clearParser_cmbBuf (s : State) : (clearParser s).cmbBuf = s.cmbBuf := rfl
@[simp] theorem clearParser_cmbValid (s : State) : (clearParser s).cmbValid = s.cmbValid := rfl
@[simp] theorem clearParser_cmbOpcode (s : State) : (clearParser s).cmbOpcode = s.cmbOpcode := rfl
@[simp] theorem clearParser_cmbStatus (s : State) : (clearParser s).cmbStatus = s.cmbStatus := rfl
@[simp] theorem clearParser_output (s : State) : (clearParser s).output = s.output := rfl
@[simp] theorem clearParser_pendingOps (s : State) : (clearParser s).pendingOps = s.pendingOps := rfl

/-! ## storeRx -/

@[simp] theorem storeRx_opcodes (s : State) (k : Nat) (b : Byte) (q : RxState) :
    (storeRx s k b q).opcodes = s.opcodes := rfl
@[simp] theorem storeRx_rxState (s : State) (k : Nat) (b : Byte) (q : RxState) :
    (storeRx s k b q).rxState = q := rfl
@[simp] theorem storeRx_rxBuf (s : State) (k : Nat) (b : Byte) (q : RxState) :
    (storeRx s k b q).rxBuf = s.rxBuf.write k b := rfl
@[simp] theorem storeRx_rxCursor (s : State) (k : Nat) (b : Byte) (q : RxState) :
    (storeRx s k b q).rxCursor = s.rxCursor := rfl
@[simp] theorem storeRx_rxEnd (s : State) (k : Nat) (b : Byte) (q : RxState) :
    (storeRx s k b q).rxEnd = s.rxEnd := rfl
@[simp] theorem storeRx_txBuf (s : State) (k : Nat) (b : Byte) (q : RxState) :
    (storeRx s k b q).txBuf = s.txBuf := rfl
@[simp] theorem storeRx_txPending (s : State) (k : Nat) (b : Byte) (q : RxState) :
    (storeRx s k b q).txPending = s.txPending := rfl
@[simp] theorem storeRx_rpgStatus (s : State) (k : Nat) (b : Byte) (q : RxState) :
    (storeRx s k b q).rpgStatus = s.rpgStatus := rfl
@[simp] theorem storeRx_accBuf (s : State) (k : Nat) (b : Byte) (q : RxState) :
    (storeRx s k b q).accBuf = s.accBuf := rfl
@[simp] theorem storeRx_accCount (s : State) (k : Nat) (b : Byte) (q : RxState) :
    (storeRx s k b q).accCount = s.accCount := rfl
@[simp] theorem storeRx_cmbBuf (s : State) (k : Nat) (b : Byte) (q : RxState) :
    (storeRx s k b q).cmbBuf = s.cmbBuf := rfl
@[simp] theorem storeRx_cmbValid (s : State) (k : Nat) (b : Byte) (q : RxState) :
    (storeRx s k b q).cmbValid = s.cmbValid := rfl
@[simp] theorem storeRx_cmbOpcode (s : State) (k : Nat) (b : Byte) (q : RxState) :
    (storeRx s k b q).cmbOpcode = s.cmbOpcode := rfl
@[simp] theorem storeRx_cmbStatus (s : State) (k : Nat) (b : Byte) (q : RxState) :
    (storeRx s k b q).cmbStatus = s.cmbStatus := rfl
@[simp] theorem storeRx_output (s : State) (k : Nat) (b : Byte) (q : RxState) :
    (storeRx s k b q).output = s.output := rfl
@[simp] theorem storeRx_pendingOps (s : State) (k : Nat) (b : Byte) (q : RxState) :
    (storeRx s k b q).pendingOps = s.pendingOps := rfl

/-! ## takeOperation -/

@[simp] theorem takeOperation_opcodes (s : State) (rest : List (List Byte)) :
    (takeOperation s rest).opcodes = s.opcodes := rfl
@[simp] theorem takeOperation_rxState (s : State) (rest : List (List Byte)) :
    (takeOperation s rest).rxState = s.rxState := rfl
@[simp] theorem takeOperation_rxBuf (s : State) (rest : List (List Byte)) :
    (takeOperation s rest).rxBuf = s.rxBuf := rfl
@[simp] theorem takeOperation_rxCursor (s : State) (rest : List (List Byte)) :
    (takeOperation s rest).rxCursor = s.rxCursor := rfl
@[simp] theorem takeOperation_rxEnd (s : State) (rest : List (List Byte)) :
    (takeOperation s rest).rxEnd = s.rxEnd := rfl
@[simp] theorem takeOperation_txBuf (s : State) (rest : List (List Byte)) :
    (takeOperation s rest).txBuf = s.txBuf := rfl
@[simp] theorem takeOperation_txPending (s : State) (rest : List (List Byte)) :
    (takeOperation s rest).txPending = s.txPending := rfl
@[simp] theorem takeOperation_rpgStatus (s : State) (rest : List (List Byte)) :
    (takeOperation s rest).rpgStatus = s.rpgStatus := rfl
@[simp] theorem takeOperation_accBuf (s : State) (rest : List (List Byte)) :
    (takeOperation s rest).accBuf = s.accBuf := rfl
@[simp] theorem takeOperation_accCount (s : State) (rest : List (List Byte)) :
    (takeOperation s rest).accCount = s.accCount := rfl
@[simp] theorem takeOperation_cmbBuf (s : State) (rest : List (List Byte)) :
    (takeOperation s rest).cmbBuf = s.cmbBuf := rfl
@[simp] theorem takeOperation_cmbValid (s : State) (rest : List (List Byte)) :
    (takeOperation s rest).cmbValid = s.cmbValid := rfl
@[simp] theorem takeOperation_cmbOpcode (s : State) (rest : List (List Byte)) :
    (takeOperation s rest).cmbOpcode = s.cmbOpcode := rfl
@[simp] theorem takeOperation_cmbStatus (s : State) (rest : List (List Byte)) :
    (takeOperation s rest).cmbStatus = s.cmbStatus := rfl
@[simp] theorem takeOperation_output (s : State) (rest : List (List Byte)) :
    (takeOperation s rest).output = .none := rfl
@[simp] theorem takeOperation_pendingOps (s : State) (rest : List (List Byte)) :
    (takeOperation s rest).pendingOps = rest := rfl

/-! ## finishReply -/

@[simp] theorem finishReply_opcodes (s : State) : (finishReply s).opcodes = s.opcodes := rfl
@[simp] theorem finishReply_rxState (s : State) : (finishReply s).rxState = s.rxState := rfl
@[simp] theorem finishReply_rxBuf (s : State) : (finishReply s).rxBuf = s.rxBuf := rfl
@[simp] theorem finishReply_rxCursor (s : State) : (finishReply s).rxCursor = s.rxCursor := rfl
@[simp] theorem finishReply_rxEnd (s : State) : (finishReply s).rxEnd = s.rxEnd := rfl
@[simp] theorem finishReply_txBuf (s : State) : (finishReply s).txBuf = s.txBuf := rfl
@[simp] theorem finishReply_txPending (s : State) : (finishReply s).txPending = true := rfl
@[simp] theorem finishReply_rpgStatus (s : State) : (finishReply s).rpgStatus = .ok := rfl
@[simp] theorem finishReply_accBuf (s : State) : (finishReply s).accBuf = s.accBuf := rfl
@[simp] theorem finishReply_accCount (s : State) : (finishReply s).accCount = s.accCount := rfl
@[simp] theorem finishReply_cmbBuf (s : State) : (finishReply s).cmbBuf = s.cmbBuf := rfl
@[simp] theorem finishReply_cmbValid (s : State) : (finishReply s).cmbValid = s.cmbValid := rfl
@[simp] theorem finishReply_cmbOpcode (s : State) : (finishReply s).cmbOpcode = s.cmbOpcode := rfl
@[simp] theorem finishReply_cmbStatus (s : State) : (finishReply s).cmbStatus = s.cmbStatus := rfl
@[simp] theorem finishReply_output (s : State) : (finishReply s).output = s.output := rfl
@[simp] theorem finishReply_pendingOps (s : State) : (finishReply s).pendingOps = s.pendingOps := rfl

/-! ## shortReply -/

@[simp] theorem shortReply_opcodes (f : Frame) (n : OpName) (s : State) :
    (shortReply f n s).opcodes = s.opcodes := rfl
@[simp] theorem shortReply_rxState (f : Frame) (n : OpName) (s : State) :
    (shortReply f n s).rxState = s.rxState := rfl
@[simp] theorem shortReply_rxBuf (f : Frame) (n : OpName) (s : State) :
    (shortReply f n s).rxBuf = s.rxBuf := rfl
@[simp] theorem shortReply_rxCursor (f : Frame) (n : OpName) (s : State) :
    (shortReply f n s).rxCursor = s.rxCursor := rfl
@[simp] theorem shortReply_rxEnd (f : Frame) (n : OpName) (s : State) :
    (shortReply f n s).rxEnd = s.rxEnd := rfl
@[simp] theorem shortReply_txBuf (f : Frame) (n : OpName) (s : State) :
    (shortReply f n s).txBuf = replyHeader f 6 (s.opcodes.valueOf n) s.txBuf := rfl
@[simp] theorem shortReply_txPending (f : Frame) (n : OpName) (s : State) :
    (shortReply f n s).txPending = s.txPending := rfl
@[simp] theorem shortReply_rpgStatus (f : Frame) (n : OpName) (s : State) :
    (shortReply f n s).rpgStatus = s.rpgStatus := rfl
@[simp] theorem shortReply_accBuf (f : Frame) (n : OpName) (s : State) :
    (shortReply f n s).accBuf = s.accBuf := rfl
@[simp] theorem shortReply_accCount (f : Frame) (n : OpName) (s : State) :
    (shortReply f n s).accCount = s.accCount := rfl
@[simp] theorem shortReply_cmbBuf (f : Frame) (n : OpName) (s : State) :
    (shortReply f n s).cmbBuf = s.cmbBuf := rfl
@[simp] theorem shortReply_cmbValid (f : Frame) (n : OpName) (s : State) :
    (shortReply f n s).cmbValid = s.cmbValid := rfl
@[simp] theorem shortReply_cmbOpcode (f : Frame) (n : OpName) (s : State) :
    (shortReply f n s).cmbOpcode = s.cmbOpcode := rfl
@[simp] theorem shortReply_cmbStatus (f : Frame) (n : OpName) (s : State) :
    (shortReply f n s).cmbStatus = s.cmbStatus := rfl
@[simp] theorem shortReply_output (f : Frame) (n : OpName) (s : State) :
    (shortReply f n s).output = s.output := rfl
@[simp] theorem shortReply_pendingOps (f : Frame) (n : OpName) (s : State) :
    (shortReply f n s).pendingOps = s.pendingOps := rfl

/-! ## echoReply -/

@[simp] theorem echoReply_opcodes (f : Frame) (s : State) : (echoReply f s).opcodes = s.opcodes := rfl
@[simp] theorem echoReply_rxState (f : Frame) (s : State) : (echoReply f s).rxState = s.rxState := rfl
@[simp] theorem echoReply_rxBuf (f : Frame) (s : State) : (echoReply f s).rxBuf = s.rxBuf := rfl
@[simp] theorem echoReply_rxCursor (f : Frame) (s : State) : (echoReply f s).rxCursor = s.rxCursor := rfl
@[simp] theorem echoReply_rxEnd (f : Frame) (s : State) : (echoReply f s).rxEnd = s.rxEnd := rfl
@[simp] theorem echoReply_txBuf (f : Frame) (s : State) :
    (echoReply f s).txBuf = (replyHeader f f.length (s.opcodes.valueOf .debug) s.txBuf).writeBytes PAYLOAD_OFF
      (f.payload.take (payloadLength f.length)) := rfl
@[simp] theorem echoReply_txPending (f : Frame) (s : State) : (echoReply f s).txPending = s.txPending := rfl
@[simp] theorem echoReply_rpgStatus (f : Frame) (s : State) : (echoReply f s).rpgStatus = s.rpgStatus := rfl
@[simp] theorem echoReply_accBuf (f : Frame) (s : State) : (echoReply f s).accBuf = s.accBuf := rfl
@[simp] theorem echoReply_accCount (f : Frame) (s : State) : (echoReply f s).accCount = s.accCount := rfl
@[simp] theorem echoReply_cmbBuf (f : Frame) (s : State) : (echoReply f s).cmbBuf = s.cmbBuf := rfl
@[simp] theorem echoReply_cmbValid (f : Frame) (s : State) : (echoReply f s).cmbValid = s.cmbValid := rfl
@[simp] theorem echoReply_cmbOpcode (f : Frame) (s : State) : (echoReply f s).cmbOpcode = s.cmbOpcode := rfl
@[simp] theorem echoReply_cmbStatus (f : Frame) (s : State) : (echoReply f s).cmbStatus = s.cmbStatus := rfl
@[simp] theorem echoReply_output (f : Frame) (s : State) : (echoReply f s).output = s.output := rfl
@[simp] theorem echoReply_pendingOps (f : Frame) (s : State) :
    (echoReply f s).pendingOps = s.pendingOps := rfl

/-! ## accumulate -/

@[simp] theorem accumulate_opcodes (f : Frame) (s : State) : (accumulate f s).opcodes = s.opcodes := rfl
@[simp] theorem accumulate_rxState (f : Frame) (s : State) : (accumulate f s).rxState = s.rxState := rfl
@[simp] theorem accumulate_rxBuf (f : Frame) (s : State) : (accumulate f s).rxBuf = s.rxBuf := rfl
@[simp] theorem accumulate_rxCursor (f : Frame) (s : State) : (accumulate f s).rxCursor = s.rxCursor := rfl
@[simp] theorem accumulate_rxEnd (f : Frame) (s : State) : (accumulate f s).rxEnd = s.rxEnd := rfl
@[simp] theorem accumulate_txBuf (f : Frame) (s : State) : (accumulate f s).txBuf = s.txBuf := rfl
@[simp] theorem accumulate_txPending (f : Frame) (s : State) : (accumulate f s).txPending = s.txPending := rfl
@[simp] theorem accumulate_rpgStatus (f : Frame) (s : State) : (accumulate f s).rpgStatus = s.rpgStatus := rfl
@[simp] theorem accumulate_accBuf (f : Frame) (s : State) :
    (accumulate f s).accBuf = s.accBuf.writeBytes 0 (f.payload.take (payloadLength f.length)) := rfl
@[simp] theorem accumulate_accCount (f : Frame) (s : State) :
    (accumulate f s).accCount = BitVec.ofNat 8 (payloadLength f.length) := rfl
@[simp] theorem accumulate_cmbBuf (f : Frame) (s : State) : (accumulate f s).cmbBuf = s.cmbBuf := rfl
@[simp] theorem accumulate_cmbValid (f : Frame) (s : State) : (accumulate f s).cmbValid = s.cmbValid := rfl
@[simp] theorem accumulate_cmbOpcode (f : Frame) (s : State) : (accumulate f s).cmbOpcode = s.cmbOpcode := rfl
@[simp] theorem accumulate_cmbStatus (f : Frame) (s : State) : (accumulate f s).cmbStatus = s.cmbStatus := rfl
@[simp] theorem accumulate_output (f : Frame) (s : State) :
    (accumulate f s).output = .applied ((s.accBuf.writeBytes 0 (f.payload.take (payloadLength f.length))).readBytes 0
      (payloadLength f.length)) := rfl
@[simp] theorem accumulate_pendingOps (f : Frame) (s : State) :
    (accumulate f s).pendingOps = s.pendingOps := rfl

/-! ## powerReply -/

@[simp] theorem powerReply_opcodes (f : Frame) (s : State) : (powerReply f s).opcodes = s.opcodes := rfl
@[simp] theorem powerReply_rxState (f : Frame) (s : State) : (powerReply f s).rxState = s.rxState := rfl
@[simp] theorem powerReply_rxBuf (f : Frame) (s : State) : (powerReply f s).rxBuf = s.rxBuf := rfl
@[simp] theorem powerReply_rxCursor (f : Frame) (s : State) : (powerReply f s).rxCursor = s.rxCursor := rfl
@[simp] theorem powerReply_rxEnd (f : Frame) (s : State) : (powerReply f s).rxEnd = s.rxEnd := rfl
@[simp] theorem powerReply_txBuf (f : Frame) (s : State) :
    (powerReply f s).txBuf = (replyHeader f 0x07 (s.opcodes.valueOf .nack) s.txBuf).write 9 0x01 := rfl
@[simp] theorem powerReply_txPending (f : Frame) (s : State) : (powerReply f s).txPending = s.txPending := rfl
@[simp] theorem powerReply_rpgStatus (f : Frame) (s : State) : (powerReply f s).rpgStatus = s.rpgStatus := rfl
@[simp] theorem powerReply_accBuf (f : Frame) (s : State) : (powerReply f s).accBuf = s.accBuf := rfl
@[simp] theorem powerReply_accCount (f : Frame) (s : State) : (powerReply f s).accCount = s.accCount := rfl
@[simp] theorem powerReply_cmbBuf (f : Frame) (s : State) : (powerReply f s).cmbBuf = s.cmbBuf := rfl
@[simp] theorem powerReply_cmbValid (f : Frame) (s : State) : (powerReply f s).cmbValid = s.cmbValid := rfl
@[simp] theorem powerReply_cmbOpcode (f : Frame) (s : State) : (powerReply f s).cmbOpcode = s.cmbOpcode := rfl
@[simp] theorem powerReply_cmbStatus (f : Frame) (s : State) : (powerReply f s).cmbStatus = s.cmbStatus := rfl
@[simp] theorem powerReply_output (f : Frame) (s : State) : (powerReply f s).output = s.output := rfl
@[simp] theorem powerReply_pendingOps (f : Frame) (s : State) :
    (powerReply f s).pendingOps = s.pendingOps := rfl

/-! ## telemReply -/

@[simp] theorem telemReply_opcodes (f : Frame) (s : State) : (telemReply f s).opcodes = s.opcodes := rfl
@[simp] theorem telemReply_rxState (f : Frame) (s : State) : (telemReply f s).rxState = s.rxState := rfl
@[simp] theorem telemReply_rxBuf (f : Frame) (s : State) : (telemReply f s).rxBuf = s.rxBuf := rfl
@[simp] theorem telemReply_rxCursor (f : Frame) (s : State) : (telemReply f s).rxCursor = s.rxCursor := rfl
@[simp] theorem telemReply_rxEnd (f : Frame) (s : State) : (telemReply f s).rxEnd = s.rxEnd := rfl
@[simp] theorem telemReply_txBuf (f : Frame) (s : State) :
    (telemReply f s).txBuf = replyHeader f 0x54 (s.opcodes.valueOf .telem) s.txBuf := rfl
@[simp] theorem telemReply_txPending (f : Frame) (s : State) : (telemReply f s).txPending = s.txPending := rfl
@[simp] theorem telemReply_rpgStatus (f : Frame) (s : State) : (telemReply f s).rpgStatus = s.rpgStatus := rfl
@[simp] theorem telemReply_accBuf (f : Frame) (s : State) : (telemReply f s).accBuf = s.accBuf := rfl
@[simp] theorem telemReply_accCount (f : Frame) (s : State) : (telemReply f s).accCount = s.accCount := rfl
@[simp] theorem telemReply_cmbBuf (f : Frame) (s : State) : (telemReply f s).cmbBuf = s.cmbBuf := rfl
@[simp] theorem telemReply_cmbValid (f : Frame) (s : State) : (telemReply f s).cmbValid = s.cmbValid := rfl
@[simp] theorem telemReply_cmbOpcode (f : Frame) (s : State) : (telemReply f s).cmbOpcode = s.cmbOpcode := rfl
@[simp] theorem telemReply_cmbStatus (f : Frame) (s : State) : (telemReply f s).cmbStatus = s.cmbStatus := rfl
@[simp] theorem telemReply_output (f : Frame) (s : State) : (telemReply f s).output = s.output := rfl
@[simp] theorem telemReply_pendingOps (f : Frame) (s : State) :
    (telemReply f s).pendingOps = s.pendingOps := rfl

/-! ## timeReply -/

@[simp] theorem timeReply_opcodes (f : Frame) (c : Clock) (d : TimeDraw) (s : State) :
    (timeReply f c d s).opcodes = s.opcodes := rfl
@[simp] theorem timeReply_rxState (f : Frame) (c : Clock) (d : TimeDraw) (s : State) :
    (timeReply f c d s).rxState = s.rxState := rfl
@[simp] theorem timeReply_rxBuf (f : Frame) (c : Clock) (d : TimeDraw) (s : State) :
    (timeReply f c d s).rxBuf = s.rxBuf := rfl
@[simp] theorem timeReply_rxCursor (f : Frame) (c : Clock) (d : TimeDraw) (s : State) :
    (timeReply f c d s).rxCursor = s.rxCursor := rfl
@[simp] theorem timeReply_rxEnd (f : Frame) (c : Clock) (d : TimeDraw) (s : State) :
    (timeReply f c d s).rxEnd = s.rxEnd := rfl
@[simp] theorem timeReply_txBuf (f : Frame) (c : Clock) (d : TimeDraw) (s : State) :
    (timeReply f c d s).txBuf = timePayload c d (replyHeader f 0x0e (s.opcodes.valueOf .setTime) s.txBuf) := rfl
@[simp] theorem timeReply_txPending (f : Frame) (c : Clock) (d : TimeDraw) (s : State) :
    (timeReply f c d s).txPending = s.txPending := rfl
@[simp] theorem timeReply_rpgStatus (f : Frame) (c : Clock) (d : TimeDraw) (s : State) :
    (timeReply f c d s).rpgStatus = s.rpgStatus := rfl
@[simp] theorem timeReply_accBuf (f : Frame) (c : Clock) (d : TimeDraw) (s : State) :
    (timeReply f c d s).accBuf = s.accBuf := rfl
@[simp] theorem timeReply_accCount (f : Frame) (c : Clock) (d : TimeDraw) (s : State) :
    (timeReply f c d s).accCount = s.accCount := rfl
@[simp] theorem timeReply_cmbBuf (f : Frame) (c : Clock) (d : TimeDraw) (s : State) :
    (timeReply f c d s).cmbBuf = s.cmbBuf := rfl
@[simp] theorem timeReply_cmbValid (f : Frame) (c : Clock) (d : TimeDraw) (s : State) :
    (timeReply f c d s).cmbValid = s.cmbValid := rfl
@[simp] theorem timeReply_cmbOpcode (f : Frame) (c : Clock) (d : TimeDraw) (s : State) :
    (timeReply f c d s).cmbOpcode = s.cmbOpcode := rfl
@[simp] theorem timeReply_cmbStatus (f : Frame) (c : Clock) (d : TimeDraw) (s : State) :
    (timeReply f c d s).cmbStatus = s.cmbStatus := rfl
@[simp] theorem timeReply_output (f : Frame) (c : Clock) (d : TimeDraw) (s : State) :
    (timeReply f c d s).output = s.output := rfl
@[simp] theorem timeReply_pendingOps (f : Frame) (c : Clock) (d : TimeDraw) (s : State) :
    (timeReply f c d s).pendingOps = s.pendingOps := rfl

/-! ## The canonical form -/

/-- Every buffer of the state after reset is in the canonical form. -/
theorem reset_buffers_wf :
    State.reset.rxBuf.wf ∧ State.reset.txBuf.wf ∧ State.reset.accBuf.wf ∧ State.reset.cmbBuf.wf :=
  ⟨Memory.wf_zero, Memory.wf_zero, Memory.wf_zero, Memory.wf_zero⟩

theorem Memory.wf_wrLE16 {m : Memory} (h : m.wf) (a : Nat) (v : BitVec 16) : (wrLE16 m a v).wf :=
  Memory.wf_writeBytes h

theorem Memory.wf_wrLE32 {m : Memory} (h : m.wf) (a : Nat) (v : BitVec 32) : (wrLE32 m a v).wf :=
  Memory.wf_writeBytes h

end Sys2Proof.Machine
end

