-- ==== Sys2Proof/Laws/Parser.lean ====
section
/-! SUPPORT. What the Receive Parser can do, once: FEED in each state, everything a FEED can change,
and sequences of operations. -/

namespace Sys2Proof.Machine

/-! ## FEED in each state -/

section
variable {b : Byte} {s t : State}

theorem exec_feed_marker0 (h : s.rxState = .awaitMarker0) : exec (.feed b) s = .next (feedMarker0 b s) := by
  simp [exec, execFeed, h]

theorem exec_feed_marker1 (h : s.rxState = .awaitMarker1) : exec (.feed b) s = .next (feedMarker1 b s) := by
  simp [exec, execFeed, h]

theorem exec_feed_length (h : s.rxState = .awaitLength) : exec (.feed b) s = .next (feedLength b s) := by
  simp [exec, execFeed, h]

/-- The header bytes: the offset each is stored at, and the state after it. -/
theorem exec_feed_header {q q' : RxState} {k : Nat} (h : s.rxState = q)
    (hk : (q, k, q') ∈ [(RxState.awaitHwIdLow, 3, RxState.awaitHwIdHigh), (.awaitHwIdHigh, 4, .awaitMsgIdLow),
      (.awaitMsgIdLow, 5, .awaitMsgIdHigh), (.awaitMsgIdHigh, 6, .awaitRoute), (.awaitRoute, 7, .awaitOpcode)]) :
    exec (.feed b) s = .next (storeRx s k b q') := by
  simp only [List.mem_cons, Prod.mk.injEq, List.not_mem_nil, or_false] at hk
  rcases hk with ⟨rfl, rfl, rfl⟩ | ⟨rfl, rfl, rfl⟩ | ⟨rfl, rfl, rfl⟩ | ⟨rfl, rfl, rfl⟩ | ⟨rfl, rfl, rfl⟩ <;>
    simp [exec, execFeed, h]

theorem exec_feed_opcode (h : s.rxState = .awaitOpcode) : exec (.feed b) s = .next (feedOpcode b s) := by
  simp [exec, execFeed, h]

theorem exec_feed_payload (h : s.rxState = .awaitPayload) (hc : s.rxCursor.toNat < FRAME_CAP) :
    exec (.feed b) s = .next { s with
      rxBuf := s.rxBuf.write s.rxCursor.toNat b, rxCursor := s.rxCursor + 1,
      rxState := if s.rxCursor + 1 = s.rxEnd then .complete else .awaitPayload } := by
  simp [exec, execFeed, h, feedPayload, hc]

theorem exec_feed_complete (h : s.rxState = .complete) : exec (.feed b) s = .next s := by
  simp [exec, execFeed, h]

/-- A stored header byte, in the terms of the claims. -/
theorem byteStored_storeRx (k : Nat) (q : RxState) : ByteStored k b q s (storeRx s k b q) :=
  ⟨rfl, by simp, fun a ha => by simp [Memory.read_write_of_ne ha], rfl, rfl,
    ⟨rfl, rfl, rfl⟩, ⟨rfl, rfl⟩, ⟨rfl, rfl, rfl, rfl⟩, ⟨rfl, rfl⟩, rfl⟩

/-- A cleared parser, in the terms of the claims. -/
theorem parserCleared_clearParser (s : State) : ParserCleared s (clearParser s) :=
  ⟨rfl, by simp, rfl, rfl, ⟨rfl, rfl, rfl⟩, ⟨rfl, rfl⟩, ⟨rfl, rfl, rfl, rfl⟩, ⟨rfl, rfl⟩, rfl⟩

/-- Everything a FEED can do that concerns the other units: nothing (40_receive_parser.md R118). -/
theorem onlyRx_of_feed (h : exec (.feed b) s = .next t) : OnlyRx s t := by
  have h : execFeed b s = .next t := h
  unfold execFeed feedMarker0 feedMarker1 feedLength feedOpcode feedPayload at h
  split at h <;> (try split at h) <;> first
    | (obtain rfl := Host.Outcome.next.inj h
       exact ⟨⟨rfl, rfl, rfl⟩, ⟨rfl, rfl⟩, ⟨rfl, rfl, rfl, rfl⟩, ⟨rfl, rfl⟩, rfl⟩)
    | cases h

end

/-! ## Sequences of operations -/

section
variable {s t u : State}

theorem OnlyRx.refl (s : State) : OnlyRx s s :=
  ⟨⟨rfl, rfl, rfl⟩, ⟨rfl, rfl⟩, ⟨rfl, rfl, rfl, rfl⟩, ⟨rfl, rfl⟩, rfl⟩

theorem OnlyRx.trans (h : OnlyRx s t) (h' : OnlyRx t u) : OnlyRx s u := by
  simp_all [OnlyRx, SameRpg, SameAcc, SameCmb, SameHost]

@[simp] theorem execAll_nil (s : State) : execAll [] s = .next s := rfl

theorem execAll_cons_of_next {i : Instr} {is : List Instr} (h : exec i s = .next t) :
    execAll (i :: is) s = execAll is t := by
  simp [execAll, h]

theorem execAll_append_of_next {is js : List Instr} (h : execAll is s = .next t) :
    execAll (is ++ js) s = execAll js t := by
  induction is generalizing s with
  | nil => exact congrArg (execAll js) (Host.Outcome.next.inj h)
  | cons i is ih =>
    simp only [execAll, List.cons_append] at h ⊢
    cases he : exec i s with
    | next r => rw [he] at h; exact ih h
    | fault r => rw [he] at h; cases h
    | refused r => rw [he] at h; cases h

@[simp] theorem feedAll_nil (s : State) : feedAll [] s = .next s := rfl

theorem feedAll_cons_of_next {b : Byte} {bs : List Byte} (h : exec (.feed b) s = .next t) :
    feedAll (b :: bs) s = feedAll bs t :=
  execAll_cons_of_next h

theorem feedAll_append_of_next {bs cs : List Byte} (h : feedAll bs s = .next t) :
    feedAll (bs ++ cs) s = feedAll cs t := by
  rw [feedAll, List.map_append]
  exact execAll_append_of_next h

end

end Sys2Proof.Machine
end

