-- ==== Sys2Proof/Laws/Step.lean ====
section
/-! SUPPORT. What a step and the decoder can do, once: the cases of `step`, the pieces of the host
operation decoder. -/

namespace Sys2Proof

/-! ## Pieces of the decoder -/

theorem nibbleOperand_ok (v : BitVec 4) : nibbleOperand (v.setWidth 8) = .ok v := by
  have h := v.isLt
  have h2 : (v.setWidth 8).toNat = v.toNat := by simp; omega
  rw [nibbleOperand, h2, if_pos (by omega)]
  simp

theorem nibbleOperand_error {b : Byte} (h : 16 ≤ b.toNat) : nibbleOperand b = .error .operandOutOfRange := by
  rw [nibbleOperand, if_neg (by omega)]

theorem nibbleOperand_cases {b : Byte} {v : BitVec 4} (h : nibbleOperand b = .ok v) : v.setWidth 8 = b := by
  unfold nibbleOperand at h
  split at h
  · cases h
    apply BitVec.eq_of_toNat_eq
    simp
    omega
  · cases h

theorem bitOperand_ok (a : Bool) : bitOperand (if a then 1 else 0) = .ok a := by
  cases a <;> rfl

theorem bitOperand_error {b : Byte} (h : 2 ≤ b.toNat) : bitOperand b = .error .operandOutOfRange := by
  have h0 : b ≠ 0 := by rintro rfl; simp at h
  have h1 : b ≠ 1 := by rintro rfl; simp at h
  rw [bitOperand, if_neg h0, if_neg h1]

theorem bitOperand_cases {b : Byte} {a : Bool} (h : bitOperand b = .ok a) : b = if a then 1 else 0 := by
  unfold bitOperand at h
  split at h
  · cases h; simpa
  · split at h
    · cases h; simpa
    · cases h

theorem nanosOperand_ok (n : Fin NANOS) : nanosOperand (BitVec.ofNat 32 n.val) = .ok n := by
  have h := n.isLt
  have h2 : (BitVec.ofNat 32 n.val).toNat = n.val := by simp [NANOS] at h ⊢; omega
  simp [nanosOperand, h2]

theorem nanosOperand_error {v : BitVec 32} (h : NANOS ≤ v.toNat) : nanosOperand v = .error .operandOutOfRange := by
  rw [nanosOperand, dif_neg (by omega)]

theorem nanosOperand_cases {v : BitVec 32} {n : Fin NANOS} (h : nanosOperand v = .ok n) :
    BitVec.ofNat 32 n.val = v := by
  unfold nanosOperand at h
  split at h
  · cases h
    simp
  · cases h

/-- A legal frame's bytes decode to its opcode's instruction. -/
theorem decodeFrame_encodeFrame {m : OpcodeMap} (hm : m.wf) {f : Frame} (hf : f.wf) (n : OpName)
    (a : Bool) (c : Clock) (d : TimeDraw) :
    decodeFrame m a c d (encodeFrame (m.valueOf n) f) = .ok (Instr.ofFrame n f a c d) := by
  obtain ⟨h6, hp⟩ := hf
  have hh := num16_byteOf f.hwId
  have hg := num16_byteOf f.msgId
  simp [encodeFrame, decodeFrame, OpcodeMap.nameOf_valueOf hm, hp, hh, hg, Nat.not_lt.mpr h6]

theorem encode_ofFrame (m : OpcodeMap) (n : OpName) (f : Frame) (a : Bool) (c : Clock) (d : TimeDraw) :
    encode m (Instr.ofFrame n f a c d) = encodeFrame (m.valueOf n) f := by
  cases n <;> rfl

namespace Machine

/-! ## One step -/

theorem step_of_decode {s : State} {op : List Byte} {rest : List (List Byte)} {i : Instr}
    (hp : s.pendingOps = op :: rest) (hd : decodeOp op = .ok i) : step s = exec i (takeOperation s rest) := by
  simp [step, hp, hd]

theorem step_of_error {s : State} {op : List Byte} {rest : List (List Byte)} {e : DecodeError}
    (hp : s.pendingOps = op :: rest) (hd : decodeOp op = .error e) : step s = .refused (.notAnOperation e) := by
  simp [step, hp, hd]

/-- Every next state comes from one decoded operation. -/
theorem step_cases {s t : State} (h : step s = .next t) :
    ∃ op rest i, s.pendingOps = op :: rest ∧ decodeOp op = .ok i ∧ exec i (takeOperation s rest) = .next t := by
  unfold step at h
  split at h
  · cases h
  · rename_i op rest hp
    split at h
    · cases h
    · rename_i i hd
      exact ⟨op, rest, i, hp, hd, h⟩

end Machine

end Sys2Proof
end

