-- ==== Sys2Proof/Laws/PerInstr.lean ====
section
/-! SUPPORT. The per-instruction family Separate: the two encodings cannot be mistaken for each other.
A frame's bytes are refused as a host operation, by their selector 0x22, and a host operation's bytes
are no frame (30_encoding.md R70, R90). -/

namespace Sys2Proof.Laws.Separate

/-- No bytes have a meaning in both encodings. -/
def Statement (i : Instr) : Prop :=
  ∀ m : OpcodeMap,
    (i.frame?.isSome = true → decodeOp (encode m i) = .error (.reservedSelector 0x22)) ∧
    (i.frame? = none → ∀ a c d j, decodeFrame m a c d (encode m i) ≠ .ok j)

theorem decodeOp_encodeFrame (op : Byte) (f : Frame) :
    decodeOp (encodeFrame op f) = .error (.reservedSelector 0x22) := rfl

theorem decodeFrame_of_ne {b : Byte} (h : b ≠ 0x22) (m : OpcodeMap) (bs : List Byte) (a : Bool) (c : Clock)
    (d : TimeDraw) (j : Instr) : decodeFrame m a c d (b :: bs) ≠ .ok j := by
  unfold decodeFrame
  split
  · rename_i heq
    have hb := (List.cons.inj heq).1
    rw [if_pos (.inl (hb ▸ h))]
    simp
  · simp

theorem of_frame {i : Instr} {n : OpName} {f : Frame} (h : i.frame? = some (n, f)) : Statement i := by
  intro m
  refine ⟨fun _ => ?_, fun hn => by rw [h] at hn; cases hn⟩
  have he : encode m i = encodeFrame (m.valueOf n) f := by
    cases i <;> simp only [Instr.frame?, Option.some.injEq, Prod.mk.injEq, reduceCtorEq] at h <;>
      obtain ⟨rfl, rfl⟩ := h <;> rfl
  rw [he]
  exact decodeOp_encodeFrame _ _

theorem of_op {i : Instr} {b : Byte} {bs : OpcodeMap → List Byte} (hf : i.frame? = none)
    (he : ∀ m, encode m i = b :: bs m) (hb : b ≠ 0x22) : Statement i := by
  intro m
  refine ⟨fun h => by simp [hf] at h, fun _ a c d j => ?_⟩
  rw [he]
  exact decodeFrame_of_ne hb m _ a c d j

theorem ack (f : Frame) : Statement (.ack f) := of_frame rfl
theorem nack (f : Frame) : Statement (.nack f) := of_frame rfl
theorem debug (f : Frame) : Statement (.debug f) := of_frame rfl
theorem data (f : Frame) (apply : Bool) : Statement (.data f apply) := of_frame rfl
theorem writeExt (f : Frame) : Statement (.writeExt f) := of_frame rfl
theorem eraseSectorExt (f : Frame) : Statement (.eraseSectorExt f) := of_frame rfl
theorem readExt (f : Frame) : Statement (.readExt f) := of_frame rfl
theorem blAck (f : Frame) : Statement (.blAck f) := of_frame rfl
theorem blNack (f : Frame) : Statement (.blNack f) := of_frame rfl
theorem blPing (f : Frame) : Statement (.blPing f) := of_frame rfl
theorem blErase (f : Frame) : Statement (.blErase f) := of_frame rfl
theorem blWritePage (f : Frame) : Statement (.blWritePage f) := of_frame rfl
theorem blWritePageAddr32 (f : Frame) : Statement (.blWritePageAddr32 f) := of_frame rfl
theorem blJump (f : Frame) : Statement (.blJump f) := of_frame rfl
theorem power (f : Frame) : Statement (.power f) := of_frame rfl
theorem getTelem (f : Frame) : Statement (.getTelem f) := of_frame rfl
theorem getTime (f : Frame) (clock : Clock) (draw : TimeDraw) : Statement (.getTime f clock draw) := of_frame rfl
theorem reboot (f : Frame) : Statement (.reboot f) := of_frame rfl
theorem setTime (f : Frame) : Statement (.setTime f) := of_frame rfl
theorem telem (f : Frame) : Statement (.telem f) := of_frame rfl
theorem feed (b : Byte) : Statement (.feed b) := of_op rfl (fun _ => rfl) (by decide)
theorem rxClear : Statement .rxClear := of_op rfl (fun _ => rfl) (by decide)
theorem rxQuery : Statement .rxQuery := of_op rfl (fun _ => rfl) (by decide)
theorem replyGen (apply : Bool) (clock : Clock) (draw : TimeDraw) : Statement (.replyGen apply clock draw) := of_op rfl (fun _ => rfl) (by decide)
theorem replyTake : Statement .replyTake := of_op rfl (fun _ => rfl) (by decide)
theorem buildNew (opcode : Byte) (hwId msgId : BitVec 16) (src dst : BitVec 4) : Statement (.buildNew opcode hwId msgId src dst) := of_op rfl (fun _ => rfl) (by decide)
theorem buildDebug (text : List Byte) : Statement (.buildDebug text) := of_op rfl (fun _ => rfl) (by decide)
theorem buildData (data : List Byte) : Statement (.buildData data) := of_op rfl (fun _ => rfl) (by decide)
theorem buildWriteExt (address : BitVec 32) (data : List Byte) (flashId : Byte) : Statement (.buildWriteExt address data flashId) := of_op rfl (fun _ => rfl) (by decide)
theorem buildEraseSectorExt (address : BitVec 32) (flashId : Byte) : Statement (.buildEraseSectorExt address flashId) := of_op rfl (fun _ => rfl) (by decide)
theorem buildReadExt (address : BitVec 32) (dataLength flashId : Byte) : Statement (.buildReadExt address dataLength flashId) := of_op rfl (fun _ => rfl) (by decide)
theorem buildWritePage (pageNumber : Byte) (pageData : List Byte) : Statement (.buildWritePage pageNumber pageData) := of_op rfl (fun _ => rfl) (by decide)
theorem buildWritePageAddr32 (address : BitVec 32) (pageData : List Byte) : Statement (.buildWritePageAddr32 address pageData) := of_op rfl (fun _ => rfl) (by decide)
theorem buildPower (mode : Byte) : Statement (.buildPower mode) := of_op rfl (fun _ => rfl) (by decide)
theorem buildSetTime (seconds nanoseconds : BitVec 32) : Statement (.buildSetTime seconds nanoseconds) := of_op rfl (fun _ => rfl) (by decide)
theorem buildByteCount : Statement .buildByteCount := of_op rfl (fun _ => rfl) (by decide)
theorem buildClear : Statement .buildClear := of_op rfl (fun _ => rfl) (by decide)
theorem describe (frame : Vector Byte FRAME_CAP) : Statement (.describe frame) := of_op rfl (fun _ => rfl) (by decide)

end Sys2Proof.Laws.Separate
end

