-- ==== Sys2Proof/Laws/Reply.lean ====
section
/-! SUPPORT. What the Reply Generator can do, once: the shape of `answerFrame`, the reply of each
opcode, what a reply's bytes read as. -/

namespace Sys2Proof.Machine

/-! ## The checks -/

theorem notReady_eq_false {s : State} : notReady s = false ↔ ReadyToReply s := by
  simp [notReady, rxComplete]

theorem notReady_eq_true {s : State} : notReady s = true ↔ s.rxState ≠ .complete ∨ s.txPending = true := by
  simp [notReady, rxComplete]

/-- With a complete frame and no reply pending, the reply is written into a zeroed `tx_buf`. -/
theorem answerFrame_of_ready {s : State} (r : State → State) (h : ReadyToReply s) :
    answerFrame r s = .next (finishReply (r { s with txBuf := Memory.zero })) := by
  rw [answerFrame, notReady_eq_false.mpr h]
  rfl

/-- Otherwise only the status changes. -/
theorem answerFrame_of_not_ready {s : State} (r : State → State)
    (h : s.rxState ≠ .complete ∨ s.txPending = true) :
    answerFrame r s = .next { s with rpgStatus := .notReady } := by
  rw [answerFrame, notReady_eq_true.mpr h]
  rfl

/-- Everything `answerFrame` can do. -/
theorem answerFrame_cases {s t : State} {r : State → State} (h : answerFrame r s = .next t) :
    t = { s with rpgStatus := .notReady } ∨
      (ReadyToReply s ∧ t = finishReply (r { s with txBuf := Memory.zero })) := by
  cases hn : notReady s with
  | true =>
    rw [answerFrame_of_not_ready r (notReady_eq_true.mp hn)] at h
    exact .inl (Host.Outcome.next.inj h).symm
  | false =>
    rw [answerFrame_of_ready r (notReady_eq_false.mp hn)] at h
    exact .inr ⟨notReady_eq_false.mp hn, (Host.Outcome.next.inj h).symm⟩

/-! ## The reply of each opcode -/

/-- What an opcode's arm writes between the zero fill and Finish (41_reply_generator.md R135 to R154). -/
def armReply (n : OpName) (f : Frame) (apply : Bool) (clock : Clock) (draw : TimeDraw) : State → State :=
  match n with
  | .ack => shortReply f .ack
  | .debug => echoReply f
  | .data => fun t => shortReply f (if apply then .ack else .nack) (accumulate f t)
  | .power => powerReply f
  | .getTelem => telemReply f
  | .getTime => timeReply f clock draw
  | _ => shortReply f .nack

theorem exec_ofFrame (n : OpName) (f : Frame) (a : Bool) (c : Clock) (d : TimeDraw) (s : State) :
    exec (Instr.ofFrame n f a c d) s = answerFrame (armReply n f a c d) s := by
  cases n <;> rfl

theorem dispatchFrame_eq (n : OpName) (f : Frame) (a : Bool) (c : Clock) (d : TimeDraw) (s : State) :
    dispatchFrame n f a c d s = answerFrame (armReply n f a c d) s := by
  cases n <;> rfl

/-- Every TAB instruction is an opcode's, with its frame. -/
theorem eq_ofFrame_of_frame? {i : Instr} {n : OpName} {f : Frame} (h : i.frame? = some (n, f)) :
    ∃ a c d, i = Instr.ofFrame n f a c d := by
  have a := false
  have c := zeroClock
  have d := zeroDraw
  cases i <;> simp only [Instr.frame?, Option.some.injEq, Prod.mk.injEq, reduceCtorEq] at h <;>
    obtain ⟨rfl, rfl⟩ := h
  case data f a => exact ⟨a, c, d, rfl⟩
  case getTime f c d => exact ⟨a, c, d, rfl⟩
  all_goals exact ⟨a, c, d, rfl⟩

theorem frame?_ofFrame (n : OpName) (f : Frame) (a : Bool) (c : Clock) (d : TimeDraw) :
    (Instr.ofFrame n f a c d).frame? = some (n, f) := by
  cases n <;> rfl

/-- REPLY_GEN on the frame in `rx_buf` is that frame's own instruction. -/
theorem exec_replyGen_of_inbound {n : OpName} {f : Frame} {s : State} (h : InboundIs n f s)
    (a : Bool) (c : Clock) (d : TimeDraw) :
    exec (.replyGen a c d) s = exec (Instr.ofFrame n f a c d) s := by
  obtain ⟨hw, h8, rfl⟩ := h
  rw [exec_ofFrame]
  show execReplyGen a c d s = _
  unfold execReplyGen
  cases hn : notReady s with
  | true => simp [answerFrame, hn]
  | false => simp [h8, OpcodeMap.nameOf_valueOf hw, dispatchFrame_eq]

/-- With a complete frame of an assigned opcode and no reply pending, REPLY_GEN writes that opcode's
reply and finishes. -/
theorem exec_replyGen_of_ready {s : State} {n : OpName} (h : ReadyToReply s)
    (hn : s.opcodes.nameOf (s.rxBuf.read 8) = some n) (a : Bool) (c : Clock) (d : TimeDraw) :
    exec (.replyGen a c d) s =
      .next (finishReply (armReply n (frameAt s.rxBuf.read) a c d { s with txBuf := Memory.zero })) := by
  show execReplyGen a c d s = _
  simp [execReplyGen, notReady_eq_false.mpr h, hn, dispatchFrame_eq, answerFrame_of_ready _ h]

/-- Everything REPLY_GEN can do. -/
theorem exec_replyGen_cases {a : Bool} {c : Clock} {d : TimeDraw} {s t : State}
    (h : exec (.replyGen a c d) s = .next t) :
    t = { s with rpgStatus := .notReady } ∨ t = { s with rpgStatus := .unsupportedOpcode } ∨
      ∃ n, s.opcodes.valueOf n = s.rxBuf.read 8 ∧ ReadyToReply s ∧
        t = finishReply (armReply n (frameAt s.rxBuf.read) a c d { s with txBuf := Memory.zero }) := by
  have h : execReplyGen a c d s = .next t := h
  unfold execReplyGen at h
  split at h
  · exact .inl (Host.Outcome.next.inj h).symm
  · split at h
    · exact .inr (.inl (Host.Outcome.next.inj h).symm)
    · rename_i n hn
      rw [dispatchFrame_eq] at h
      rcases answerFrame_cases h with h | h
      · exact .inl h
      · exact .inr (.inr ⟨n, OpcodeMap.valueOf_of_nameOf hn, h⟩)

/-! ## What an arm leaves alone -/

section
variable (n : OpName) (f : Frame) (a : Bool) (c : Clock) (d : TimeDraw) (s : State)

theorem armReply_sameRx : SameRx s (armReply n f a c d s) := by
  cases n <;> exact ⟨rfl, rfl, rfl, rfl⟩

theorem armReply_sameCmb : SameCmb s (armReply n f a c d s) := by
  cases n <;> exact ⟨rfl, rfl, rfl, rfl⟩

theorem armReply_sameHost : SameHost s (armReply n f a c d s) := by
  cases n <;> exact ⟨rfl, rfl⟩

theorem armReply_sameAcc (h : n ≠ .data) :
    SameAcc s (armReply n f a c d s) ∧ (armReply n f a c d s).output = s.output := by
  cases n <;> first | exact ⟨⟨rfl, rfl⟩, rfl⟩ | exact absurd rfl h

end

/-! ## A reply's bytes -/

theorem read_replyHeader (f : Frame) (l op : Byte) (tx : Memory) (a : Nat) :
    (replyHeader f l op tx).read a =
      if a < 9 then [MARKER0, MARKER1, l, byteOf f.hwId 0, byteOf f.hwId 1, byteOf f.msgId 0,
        byteOf f.msgId 1, swapRoute f.route, op].getD a 0 else tx.read a := by
  simp [replyHeader, Memory.read_writeBytes]

/-- A header and a payload in a zeroed buffer are a reply. -/
theorem replyIs_of_txBuf {f : Frame} {l op : Byte} {payload : List Byte} {t : State}
    (h : ∀ a, t.txBuf.read a = ((replyHeader f l op Memory.zero).writeBytes 9 payload).read a)
    (hp : t.txPending = true) (hs : t.rpgStatus = .ok) : ReplyIs f l op payload t := by
  refine ⟨?_, ?_, fun a ha => ?_, hp, hs⟩
  · have := (readBytes_eq_iff (m := t.txBuf) (a := 0) (bs := [0x22, 0x69, l, byteOf f.hwId 0,
      byteOf f.hwId 1, byteOf f.msgId 0, byteOf f.msgId 1, swapRoute f.route, op])).mpr (by
        intro k hk
        simp only [List.length_cons, List.length_nil] at hk
        rw [h, Memory.read_writeBytes_outside (.inl (by omega)), read_replyHeader, if_pos (by omega)]
        simp)
    simpa [byteOf_eq_extract] using this
  · rw [readBytes_eq_iff]
    intro k hk
    rw [h, Memory.read_writeBytes, if_pos (by omega)]
    simp
  · rw [h, Memory.read_writeBytes_outside (.inr (by omega)), read_replyHeader, if_neg (by omega)]
    rfl

theorem shortReply_replyIs (f : Frame) (n : OpName) (s : State) (h : s.txBuf = Memory.zero) :
    ReplyIs f 6 (s.opcodes.valueOf n) [] (finishReply (shortReply f n s)) := by
  refine replyIs_of_txBuf (fun a => ?_) rfl rfl
  simp [h, Memory.writeBytes]

end Sys2Proof.Machine
end

