-- ==== Sys2Proof/Tests/Slice0.lean ====
section
/-! SUPPORT. The model's own tests. Expected values are the worked examples and derived vectors of
spec/95_test_vectors.md (S…, T-…), under the opcode values of 93_implementation_defined.md I1, or are
written out by hand from the encodings of 30_encoding.md; after them, for every statement that has
hypotheses, a witness that they can all hold at once. -/

namespace Sys2Proof.Tests

set_option Elab.async false

open Sys2Proof Sys2Proof.Machine

/-! ## Small states -/

/-- Reset, with the I1 opcode values. -/
def tst : State := { State.reset with opcodes := OpcodeMap.testInstance }

/-- `tst` with a completed inbound frame. -/
def withFrame (bs : List Byte) : State :=
  { tst with
    rxState := .complete, rxBuf := Memory.zero.writeBytes 0 bs
    rxCursor := BitVec.ofNat 9 bs.length, rxEnd := BitVec.ofNat 9 bs.length }

/-- `tst` with the first bytes of a frame received, in a header state. -/
def receiving (q : RxState) (bs : List Byte) (cursor frameEnd : BitVec 9) : State :=
  { tst with rxState := q, rxBuf := Memory.zero.writeBytes 0 bs, rxCursor := cursor, rxEnd := frameEnd }

/-- `tst` with a command of this opcode constructed, as BUILD_NEW leaves it. -/
def building (opcode : Byte) : State :=
  { tst with
    cmbBuf := newCommand OpcodeMap.testInstance opcode 0x1234 0x5678 2 0
    cmbValid := true, cmbOpcode := opcode }

/-- The next state, none for a fault or a refusal. -/
def next? : Answer → Option State
  | .next t => some t
  | .fault _ => none
  | .refused _ => none

/-- The frame of most vectors: no payload, hw-id 0x1234, msg-id 0x5678, route 0x20. -/
def frame6 : Frame := { length := 6, hwId := 0x1234, msgId := 0x5678, route := 0x20, payload := [] }

/-- The bytes of that frame's header with length and opcode. -/
def hdr (l op : Byte) : List Byte := [0x22, 0x69, l, 0x34, 0x12, 0x78, 0x56, 0x20, op]

/-- What a TAB instruction leaves of the reply, run on the frame in `rx_buf`. -/
def reply (i : Instr) (bs : List Byte) (n : Nat) : Option (List Byte × Bool × Status) :=
  (next? (exec i (withFrame bs))).map (fun t => (t.txBuf.readBytes 0 n, t.txPending, t.rpgStatus))

/-- What an operation leaves of the command. -/
def command (i : Instr) (s : State) (n : Nat) : Option (List Byte × Status) :=
  (next? (exec i s)).map (fun t => (t.cmbBuf.readBytes 0 n, t.cmbStatus))

/-- What an operation leaves of the parser. -/
def parser (i : Instr) (s : State) : Option (RxState × List Byte × Nat × Nat) :=
  (next? (exec i s)).map (fun t => (t.rxState, t.rxBuf.readBytes 0 12, t.rxCursor.toNat, t.rxEnd.toNat))

/-- What an operation returns. -/
def returned (i : Instr) (s : State) : Option Output := (next? (exec i s)).map (fun t => t.output)

/-- A 258-byte frame of these first bytes. -/
def full (bs : List Byte) : Vector Byte FRAME_CAP := Vector.ofFn (fun i => bs.getD i.val 0)

/-- A Description as DESCRIBE returns it. -/
def described (name : Option OpName) (payload : PayloadDesc) (hwId msgId : BitVec 16) (src dst : NodeName) :
    Option Output := some (.description (Description.mk name payload hwId msgId src dst))

def clk : Clock := { sec := 1700000000, ns := ⟨0, by decide⟩ }
def draw0 : TimeDraw := #v[0, 0, 0, 0, 0, 0, 0, 0]
def draw1 : TimeDraw := #v[1, 2, 3, 4, 5, 6, 7, 8]

/-! ## WellFormed refuses -/

/-- 30_encoding.md R71: a length byte of 5. -/
theorem test_wf_refuses_length_5 : (Instr.nack { frame6 with length := 5 }).wf = false := by decide

/-- 30_encoding.md R73: a payload that the length byte does not count, too long and too short. -/
theorem test_wf_refuses_payload_count :
    (Instr.debug { frame6 with payload := [0x68] }).wf = false ∧
    (Instr.debug { frame6 with length := 8, payload := [0x68] }).wf = false := by decide

theorem test_wf_accepts_legal_frame : (Instr.debug { frame6 with length := 7, payload := [0x68] }).wf = true := by
  decide

/-! ## Decoding words written out from the encodings -/

/-- 30_encoding.md R80: the common opcodes' frames. -/
theorem test_decode_common :
    decodeFrame OpcodeMap.testInstance true clk draw1 [0x22, 0x69, 0x06, 0x34, 0x12, 0x78, 0x56, 0x20, 0x10] =
      .ok (.ack frame6) ∧
    decodeFrame OpcodeMap.testInstance true clk draw1 [0x22, 0x69, 0x06, 0x34, 0x12, 0x78, 0x56, 0x20, 0xff] =
      .ok (.nack frame6) ∧
    decodeFrame OpcodeMap.testInstance true clk draw1 [0x22, 0x69, 0x07, 0x34, 0x12, 0x78, 0x56, 0x20, 0x11, 0x68] =
      .ok (.debug { frame6 with length := 7, payload := [0x68] }) ∧
    decodeFrame OpcodeMap.testInstance true clk draw1 [0x22, 0x69, 0x07, 0x34, 0x12, 0x78, 0x56, 0x20, 0x16, 0xAA] =
      .ok (.data { frame6 with length := 7, payload := [0xAA] } true) ∧
    decodeFrame OpcodeMap.testInstance true clk draw1 [0x22, 0x69, 0x06, 0x34, 0x12, 0x78, 0x56, 0x20, 0x20] =
      .ok (.writeExt frame6) ∧
    decodeFrame OpcodeMap.testInstance true clk draw1 [0x22, 0x69, 0x06, 0x34, 0x12, 0x78, 0x56, 0x20, 0x21] =
      .ok (.eraseSectorExt frame6) ∧
    decodeFrame OpcodeMap.testInstance true clk draw1 [0x22, 0x69, 0x06, 0x34, 0x12, 0x78, 0x56, 0x20, 0x23] =
      .ok (.readExt frame6) := by decide +kernel

/-- 30_encoding.md R80: the bootloader opcodes' frames. -/
theorem test_decode_bootloader :
    decodeFrame OpcodeMap.testInstance true clk draw1 [0x22, 0x69, 0x06, 0x34, 0x12, 0x78, 0x56, 0x20, 0x01] =
      .ok (.blAck frame6) ∧
    decodeFrame OpcodeMap.testInstance true clk draw1 [0x22, 0x69, 0x06, 0x34, 0x12, 0x78, 0x56, 0x20, 0x0f] =
      .ok (.blNack frame6) ∧
    decodeFrame OpcodeMap.testInstance true clk draw1 [0x22, 0x69, 0x06, 0x34, 0x12, 0x78, 0x56, 0x20, 0x00] =
      .ok (.blPing frame6) ∧
    decodeFrame OpcodeMap.testInstance true clk draw1 [0x22, 0x69, 0x06, 0x34, 0x12, 0x78, 0x56, 0x20, 0x0c] =
      .ok (.blErase frame6) ∧
    decodeFrame OpcodeMap.testInstance true clk draw1 [0x22, 0x69, 0x06, 0x34, 0x12, 0x78, 0x56, 0x20, 0x02] =
      .ok (.blWritePage frame6) ∧
    decodeFrame OpcodeMap.testInstance true clk draw1 [0x22, 0x69, 0x06, 0x34, 0x12, 0x78, 0x56, 0x20, 0x03] =
      .ok (.blWritePageAddr32 frame6) ∧
    decodeFrame OpcodeMap.testInstance true clk draw1 [0x22, 0x69, 0x06, 0x34, 0x12, 0x78, 0x56, 0x20, 0x0b] =
      .ok (.blJump frame6) := by decide +kernel

/-- 30_encoding.md R80: the remaining opcodes' frames. -/
theorem test_decode_system :
    decodeFrame OpcodeMap.testInstance true clk draw1 [0x22, 0x69, 0x07, 0x34, 0x12, 0x78, 0x56, 0x20, 0x30, 0x08] =
      .ok (.power { frame6 with length := 7, payload := [0x08] }) ∧
    decodeFrame OpcodeMap.testInstance true clk draw1 [0x22, 0x69, 0x06, 0x34, 0x12, 0x78, 0x56, 0x20, 0x17] =
      .ok (.getTelem frame6) ∧
    decodeFrame OpcodeMap.testInstance true clk draw1 [0x22, 0x69, 0x06, 0x34, 0x12, 0x78, 0x56, 0x20, 0x13] =
      .ok (.getTime frame6 clk draw1) ∧
    decodeFrame OpcodeMap.testInstance true clk draw1 [0x22, 0x69, 0x06, 0x34, 0x12, 0x78, 0x56, 0x20, 0x12] =
      .ok (.reboot frame6) ∧
    decodeFrame OpcodeMap.testInstance true clk draw1 [0x22, 0x69, 0x06, 0x34, 0x12, 0x78, 0x56, 0x20, 0x14] =
      .ok (.setTime frame6) ∧
    decodeFrame OpcodeMap.testInstance true clk draw1 [0x22, 0x69, 0x06, 0x34, 0x12, 0x78, 0x56, 0x20, 0x18] =
      .ok (.telem frame6) := by decide +kernel

/-- 30_encoding.md R70 to R72, R82: what is no frame. -/
theorem test_decode_refuses_frames :
    decodeFrame OpcodeMap.testInstance true clk draw1 (hdr 6 0x42) = .error .unassignedOpcode ∧
    decodeFrame OpcodeMap.testInstance true clk draw1 (hdr 5 0xff) = .error .badLength ∧
    decodeFrame OpcodeMap.testInstance true clk draw1 (hdr 7 0xff) = .error .badByteCount ∧
    decodeFrame OpcodeMap.testInstance true clk draw1 [0x69, 0x22, 0x06, 0, 0, 0, 0, 0, 0xff] = .error .badMarker := by
  decide +kernel

/-- 30_encoding.md R90: the parser's and the reply generator's operations. -/
theorem test_decode_parser_and_reply :
    decodeOp [0x01, 0x69] = .ok (.feed 0x69) ∧ decodeOp [0x02] = .ok .rxClear ∧ decodeOp [0x03] = .ok .rxQuery ∧
    decodeOp [0x04, 0x01, 0x00, 0xF1, 0x53, 0x65, 0, 0, 0, 0, 0xFF, 0xC9, 0x9A, 0x3B, 1, 2, 3, 4, 5, 6, 7, 8] =
      .ok (.replyGen true { sec := 1700000000, ns := ⟨999999999, by decide⟩ } draw1) ∧
    decodeOp [0x05] = .ok .replyTake := by decide +kernel

/-- 30_encoding.md R90: the command builder's operations. -/
theorem test_decode_builder :
    decodeOp [0x06, 0x20, 0x34, 0x12, 0x78, 0x56, 0x02, 0x0F] = .ok (.buildNew 0x20 0x1234 0x5678 2 15) ∧
    decodeOp [0x07, 0x68] = .ok (.buildDebug [0x68]) ∧ decodeOp [0x08, 0xAA, 0xBB] = .ok (.buildData [0xAA, 0xBB]) ∧
    decodeOp [0x09, 0xEF, 0xBE, 0xAD, 0xDE, 0xAA, 0x03] = .ok (.buildWriteExt 0xDEADBEEF [0xAA] 3) ∧
    decodeOp [0x0A, 0x00, 0x00, 0x01, 0x00, 0x01] = .ok (.buildEraseSectorExt 0x00010000 1) ∧
    decodeOp [0x0B, 0x78, 0x56, 0x34, 0x12, 0x80, 0x07] = .ok (.buildReadExt 0x12345678 0x80 7) ∧
    decodeOp [0x0C, 0x05, 0xFF] = .ok (.buildWritePage 5 [0xFF]) ∧
    decodeOp [0x0D, 0x00, 0x40, 0x00, 0x08, 0xFF] = .ok (.buildWritePageAddr32 0x08004000 [0xFF]) ∧
    decodeOp [0x0E, 0x08] = .ok (.buildPower 8) ∧
    decodeOp [0x0F, 0x04, 0x03, 0x02, 0x01, 0x0D, 0x0C, 0x0B, 0x0A] = .ok (.buildSetTime 0x01020304 0x0A0B0C0D) ∧
    decodeOp [0x10] = .ok .buildByteCount ∧ decodeOp [0x11] = .ok .buildClear := by decide +kernel

/-- 30_encoding.md R90: DESCRIBE takes 258 bytes. -/
theorem test_decode_describe :
    decodeOp (0x12 :: 0x22 :: List.replicate 257 0) = .ok (.describe ⟨(0x22 :: List.replicate 257 0).toArray,
      by rw [List.size_toArray, List.length_cons, List.length_replicate]⟩) := by
  show decodeDescribe _ = _
  rw [decodeDescribe, dif_pos (by rw [List.length_cons, List.length_replicate])]

/-- 30_encoding.md R91, 60_exceptions.md R257. -/
theorem test_decode_refuses_operations :
    decodeOp [0x00] = .error (.reservedSelector 0x00) ∧ decodeOp [0x13] = .error (.reservedSelector 0x13) ∧
    decodeOp [0x1F] = .error (.reservedSelector 0x1F) ∧ decodeOp [0x02, 0x00] = .error .operandShape ∧
    decodeOp [] = .error .emptyOperation ∧
    decodeOp [0x06, 0x20, 0, 0, 0, 0, 0x10, 0x00] = .error .operandOutOfRange ∧
    decodeOp [0x04, 0x02, 0, 0, 0, 0, 0, 0, 0, 0, 0, 0, 0, 0, 0, 0, 0, 0, 0, 0, 0, 0] = .error .operandOutOfRange ∧
    decodeOp [0x04, 0x00, 0, 0, 0, 0, 0, 0, 0, 0, 0x00, 0xCA, 0x9A, 0x3B, 0, 0, 0, 0, 0, 0, 0, 0] =
      .error .operandOutOfRange ∧
    decodeOp (0x12 :: List.replicate 257 0) = .error .operandOutOfRange := by decide +kernel

/-! ## The Receive Parser -/

/-- T-RX-2, T-RX-9 (a second 0x22 is consumed by the hard reset), T-RX-3 and T-RX-18 (lengths 5 and 255). -/
theorem test_feed_framing :
    parser (.feed 0x69) tst = some (.awaitMarker0, List.replicate 12 0, 0, 0) ∧
    parser (.feed 0x22) (receiving .awaitMarker1 [0x22] 0 0) = some (.awaitMarker0, List.replicate 12 0, 0, 0) ∧
    parser (.feed 5) (receiving .awaitLength [0x22, 0x69] 0 0) = some (.awaitMarker0, List.replicate 12 0, 0, 0) ∧
    parser (.feed 0xff) (receiving .awaitLength [0x22, 0x69] 0 0) =
      some (.awaitHwIdLow, [0x22, 0x69, 0xff, 0, 0, 0, 0, 0, 0, 0, 0, 0], 9, 258) :=
  ⟨by decide +kernel, by decide +kernel, by decide +kernel, by decide +kernel⟩

/-- T-RX-6 and the step before T-RX-7 (the opcode byte), T-RX-7, T-RX-8 (payload), T-RX-14 (lost in Complete). -/
theorem test_feed_completion :
    parser (.feed 0x10) (receiving .awaitOpcode [0x22, 0x69, 6, 0x34, 0x12, 0x78, 0x56, 0x20] 9 9) =
      some (.complete, hdr 6 0x10 ++ [0, 0, 0], 9, 9) ∧
    parser (.feed 0x11) (receiving .awaitOpcode [0x22, 0x69, 8, 0x34, 0x12, 0x78, 0x56, 0x20] 9 11) =
      some (.awaitPayload, hdr 8 0x11 ++ [0, 0, 0], 9, 11) ∧
    parser (.feed 0x68) (receiving .awaitPayload (hdr 8 0x11) 9 11) =
      some (.awaitPayload, hdr 8 0x11 ++ [0x68, 0, 0], 10, 11) ∧
    parser (.feed 0x69) (receiving .awaitPayload (hdr 8 0x11 ++ [0x68]) 10 11) =
      some (.complete, hdr 8 0x11 ++ [0x68, 0x69, 0], 11, 11) ∧
    parser (.feed 0x22) (withFrame (hdr 6 0xff)) = some (.complete, hdr 6 0xff ++ [0, 0, 0], 9, 9) :=
  ⟨by decide +kernel, by decide +kernel, by decide +kernel, by decide +kernel, by decide +kernel⟩

/-- T-RX-15. -/
theorem test_rxClear :
    parser .rxClear (receiving .awaitPayload (hdr 8 0x11 ++ [0x68]) 10 11) =
      some (.awaitMarker0, List.replicate 12 0, 0, 0) := by decide +kernel

/-- T-RX-6, T-RST-1. -/
theorem test_rxQuery :
    returned .rxQuery (withFrame (hdr 6 0x10)) = some (.rxComplete true) ∧
    returned .rxQuery tst = some (.rxComplete false) := by decide +kernel

/-! ## The Reply Generator -/

/-- T-RPG-1. -/
theorem test_ack : reply (.ack frame6) (hdr 6 0x10) 9 =
    some ([0x22, 0x69, 6, 0x34, 0x12, 0x78, 0x56, 0x02, 0x10], true, .ok) := by decide +kernel

/-- T-RPG-3. -/
theorem test_nack : reply (.nack frame6) (hdr 6 0xff) 9 =
    some ([0x22, 0x69, 6, 0x34, 0x12, 0x78, 0x56, 0x02, 0xff], true, .ok) := by decide +kernel

/-- T-RPG-5. -/
theorem test_debug :
    reply (.debug { frame6 with length := 0x0b, payload := [0x68, 0x65, 0x6c, 0x6c, 0x6f] })
        (hdr 0x0b 0x11 ++ [0x68, 0x65, 0x6c, 0x6c, 0x6f]) 14 =
      some ([0x22, 0x69, 0x0b, 0x34, 0x12, 0x78, 0x56, 0x02, 0x11, 0x68, 0x65, 0x6c, 0x6c, 0x6f], true, .ok) := by
  decide +kernel

/-- T-RPG-7: the reply and the accumulator. -/
theorem test_data_accepted :
    (next? (exec (.data { frame6 with length := 9, payload := [0xAA, 0xBB, 0xCC] } true)
        (withFrame (hdr 9 0x16 ++ [0xAA, 0xBB, 0xCC])))).map
      (fun t => (t.txBuf.readBytes 0 9, t.accBuf.readBytes 0 4, t.accCount.toNat, t.output)) =
      some ([0x22, 0x69, 6, 0x34, 0x12, 0x78, 0x56, 0x02, 0x10], [0xAA, 0xBB, 0xCC, 0], 3,
        .applied [0xAA, 0xBB, 0xCC]) := by decide +kernel

/-- P2, step 29: a shorter DATA frame leaves the stale tail; a false answer is a NACK with status OK. -/
theorem test_data_refused :
    (next? (exec (.data { length := 8, hwId := 1, msgId := 3, route := 0x13, payload := [0xAA, 0xBB] } false)
        { withFrame [0x22, 0x69, 8, 1, 0, 3, 0, 0x13, 0x16, 0xAA, 0xBB] with
          accBuf := Memory.zero.writeBytes 0 [0x10, 0x20, 0x30, 0x40, 0x50], accCount := 5 })).map
      (fun t => (t.txBuf.readBytes 0 9, t.accBuf.readBytes 0 5, t.accCount.toNat, t.rpgStatus)) =
      some ([0x22, 0x69, 6, 1, 0, 3, 0, 0x31, 0xff], [0xAA, 0xBB, 0x30, 0x40, 0x50], 2, .ok) := by decide +kernel

/-- T-RPG-10 to T-RPG-12 (without their payloads, which R139 to R141 ignore). -/
theorem test_flash_frames :
    reply (.writeExt frame6) (hdr 6 0x20) 9 = some ([0x22, 0x69, 6, 0x34, 0x12, 0x78, 0x56, 0x02, 0xff], true, .ok) ∧
    reply (.eraseSectorExt frame6) (hdr 6 0x21) 9 =
      some ([0x22, 0x69, 6, 0x34, 0x12, 0x78, 0x56, 0x02, 0xff], true, .ok) ∧
    reply (.readExt frame6) (hdr 6 0x23) 9 = some ([0x22, 0x69, 6, 0x34, 0x12, 0x78, 0x56, 0x02, 0xff], true, .ok) := by
  decide +kernel

/-- T-RPG-13 to T-RPG-19: the common NACK 0xff, not the bootloader's 0x0f. -/
theorem test_bootloader_frames :
    ∀ i ∈ [Instr.blAck frame6, .blNack frame6, .blPing frame6, .blErase frame6, .blWritePage frame6,
      .blWritePageAddr32 frame6, .blJump frame6],
    reply i (hdr 6 0) 9 = some ([0x22, 0x69, 6, 0x34, 0x12, 0x78, 0x56, 0x02, 0xff], true, .ok) := by decide +kernel

/-- T-RPG-20. -/
theorem test_power : reply (.power { frame6 with length := 7, payload := [0x63] }) (hdr 7 0x30 ++ [0x63]) 10 =
    some ([0x22, 0x69, 7, 0x34, 0x12, 0x78, 0x56, 0x02, 0xff, 0x01], true, .ok) := by decide +kernel

/-- S5. -/
theorem test_getTelem : reply (.getTelem frame6) (hdr 6 0x17) 87 =
    some ([0x22, 0x69, 0x54, 0x34, 0x12, 0x78, 0x56, 0x02, 0x18] ++ List.replicate 78 0, true, .ok) := by decide +kernel

/-- T-RPG-23. -/
theorem test_getTime : reply (.getTime frame6 clk draw0) (hdr 6 0x13) 17 =
    some ([0x22, 0x69, 0x0e, 0x34, 0x12, 0x78, 0x56, 0x02, 0x14, 0x00, 0x05, 0xE6, 0x2C, 0x00, 0x9E, 0xF7, 0x0A],
      true, .ok) := by decide +kernel

/-- T-RPG-24 to T-RPG-28: the epoch, the borrow, one nanosecond before it, 2^31 s, the wrap. -/
theorem test_getTime_corners :
    let payload (sec : BitVec 64) (ns : Fin NANOS) :=
      (reply (.getTime frame6 { sec := sec, ns := ns } draw1) (hdr 6 0x13) 17).map (fun r => r.1.drop 9)
    payload 946727935 ⟨816000000, by decide⟩ = some [0, 0, 0, 0, 0, 0, 0, 0] ∧
    payload 946727936 ⟨0, by decide⟩ = some [0, 0, 0, 0, 0x00, 0x9E, 0xF7, 0x0A] ∧
    payload 946727935 ⟨815999999, by decide⟩ = some [1, 2, 3, 4, 5, 6, 7, 8] ∧
    payload (946727935 + 2 ^ 31) ⟨816000000, by decide⟩ = some [0, 0, 0, 0x80, 0, 0, 0, 0] ∧
    payload (946727935 + 2 ^ 32 + 5) ⟨816000000, by decide⟩ = some [5, 0, 0, 0, 0, 0, 0, 0] := by decide +kernel

/-- T-RPG-21, T-RPG-22, T-RPG-22b. -/
theorem test_unserviceable_frames :
    ∀ i ∈ [Instr.reboot frame6, .setTime frame6, .telem frame6],
    reply i (hdr 6 0) 9 = some ([0x22, 0x69, 6, 0x34, 0x12, 0x78, 0x56, 0x02, 0xff], true, .ok) := by decide +kernel

/-- S2 through REPLY_GEN itself. -/
theorem test_replyGen_debug : reply (.replyGen false clk draw0) (hdr 8 0x11 ++ [0x68, 0x69]) 11 =
    some ([0x22, 0x69, 8, 0x34, 0x12, 0x78, 0x56, 0x02, 0x11, 0x68, 0x69], true, .ok) := by decide +kernel

/-- T-RPG-30, T-RPG-33, T-RPG-34: the two refusals, and which comes first. -/
theorem test_replyGen_refused :
    next? (exec (.replyGen true clk draw0) tst) = some { tst with rpgStatus := .notReady } ∧
    next? (exec (.replyGen true clk draw0) (withFrame (hdr 6 0x42))) =
      some { withFrame (hdr 6 0x42) with rpgStatus := .unsupportedOpcode } ∧
    next? (exec (.replyGen true clk draw0) { withFrame (hdr 6 0x42) with txPending := true }) =
      some { withFrame (hdr 6 0x42) with txPending := true, rpgStatus := .notReady } := by decide +kernel

/-- T-RPG-35, T-RPG-36. -/
theorem test_replyTake :
    next? (exec .replyTake { tst with txPending := true }) = some tst ∧
    next? (exec .replyTake tst) = some { tst with rpgStatus := .notReady } := by decide +kernel

/-! ## The Command Builder -/

/-- T-CMB-28 and T-CMB-29: the old command is gone; the largest operands. -/
theorem test_buildNew :
    command (.buildNew 0x10 1 2 1 3) (building 0x11) 12 =
      some ([0x22, 0x69, 6, 1, 0, 2, 0, 0x13, 0x10, 0, 0, 0], .ok) ∧
    command (.buildNew 0x10 0xFFFF 0 15 15) tst 9 =
      some ([0x22, 0x69, 6, 0xFF, 0xFF, 0, 0, 0xFF, 0x10], .ok) := by decide +kernel

/-- T-CMB-1: the default lengths, an unassigned opcode's among them. -/
theorem test_buildNew_default_lengths :
    [0x20, 0x21, 0x23, 0x02, 0x30, 0x03, 0x14, 0x10, 0xff, 0x11, 0x16, 0x42].map
      (fun op => (command (.buildNew op 0x1234 0x5678 2 0) tst 3).map (fun r => r.1.getD 2 0)) =
    [0x0b, 0x0b, 0x0b, 0x07, 0x07, 0x0a, 0x0e, 0x06, 0x06, 0x06, 0x06, 0x06].map some := by decide +kernel

/-- T-CMB-2, T-CMB-22, T-CMB-23. -/
theorem test_buildDebug :
    command (.buildDebug [0x68, 0x69]) (building 0x11) 11 =
      some ([0x22, 0x69, 8, 0x34, 0x12, 0x78, 0x56, 0x20, 0x11, 0x68, 0x69], .ok) ∧
    next? (exec (.buildDebug [0x68]) (building 0x13)) = some { building 0x13 with cmbStatus := .invalidOperation } ∧
    next? (exec (.buildDebug [0x68]) tst) = some { tst with cmbStatus := .noCommand } := by decide +kernel

/-- T-CMB-4, T-CMB-5 (mostly zeros, for speed): 249 bytes fit, 250 do not. -/
theorem test_buildDebug_capacity :
    (command (.buildDebug (List.replicate 248 0 ++ [0x41])) (building 0x11) 258).map (fun r => (r.1.getD 2 0, r.1.getD 257 0, r.2)) =
      some (0xff, 0x41, .ok) ∧
    next? (exec (.buildDebug (List.replicate 250 0x41)) (building 0x11)) =
      some { building 0x11 with cmbStatus := .payloadTooLarge } := by decide +kernel

/-- T-CMB-7: a shorter payload leaves stale bytes beyond its end. -/
theorem test_buildData :
    command (.buildData [0xDD]) { building 0x16 with
        cmbBuf := putPayload [0xAA, 0xBB, 0xCC] (building 0x16).cmbBuf } 12 =
      some ([0x22, 0x69, 7, 0x34, 0x12, 0x78, 0x56, 0x20, 0x16, 0xDD, 0xBB, 0xCC], .ok) := by decide +kernel

/-- S1 and T-CMB-11. -/
theorem test_buildWriteExt :
    command (.buildWriteExt 0x00000100 [0xAA, 0xBB] 0) (building 0x20) 16 =
      some ([0x22, 0x69, 0x0d, 0x34, 0x12, 0x78, 0x56, 0x20, 0x20, 0, 0, 0, 1, 0, 0xAA, 0xBB], .ok) ∧
    next? (exec (.buildWriteExt 0 (List.replicate 245 0) 0) (building 0x20)) =
      some { building 0x20 with cmbStatus := .payloadTooLarge } := by decide +kernel

/-- T-CMB-27: a setter after BUILD_CLEAR leaves the header zero. -/
theorem test_buildWriteExt_after_clear :
    command (.buildWriteExt 0x100 [0xAA, 0xBB] 0) { building 0x20 with cmbBuf := Memory.zero } 16 =
      some ([0, 0, 0x0d, 0, 0, 0, 0, 0, 0, 0, 0, 0, 1, 0, 0xAA, 0xBB], .ok) := by decide +kernel

/-- T-CMB-12. -/
theorem test_buildEraseSectorExt : command (.buildEraseSectorExt 0x00010000 1) (building 0x21) 14 =
    some ([0x22, 0x69, 0x0b, 0x34, 0x12, 0x78, 0x56, 0x20, 0x21, 1, 0, 1, 0, 0], .ok) := by decide +kernel

/-- T-CMB-13. -/
theorem test_buildReadExt : command (.buildReadExt 0x12345678 0x80 0) (building 0x23) 15 =
    some ([0x22, 0x69, 0x0c, 0x34, 0x12, 0x78, 0x56, 0x20, 0x23, 0, 0x12, 0x34, 0x56, 0x78, 0x80], .ok) := by
  decide +kernel

/-- T-CMB-14 (its page mostly zeros, for speed) to T-CMB-16. -/
theorem test_buildWritePage :
    command (.buildWritePage 5 (List.replicate 127 0 ++ [0xFF])) (building 0x02) 138 =
      some ([0x22, 0x69, 0x87, 0x34, 0x12, 0x78, 0x56, 0x20, 0x02, 5] ++ List.replicate 127 0 ++ [0xFF], .ok) ∧
    ∀ n ∈ [127, 129], next? (exec (.buildWritePage 5 (List.replicate n 0xFF)) (building 0x02)) =
      some { building 0x02 with cmbStatus := .invalidPageSize } := by decide +kernel

/-- T-CMB-17. -/
theorem test_buildWritePageAddr32 :
    command (.buildWritePageAddr32 0x08004000 (List.replicate 128 0)) (building 0x03) 14 =
      some ([0x22, 0x69, 0x8a, 0x34, 0x12, 0x78, 0x56, 0x20, 0x03, 8, 0, 0x40, 0, 0], .ok) := by decide +kernel

/-- S4, T-CMB-19, T-CMB-24. -/
theorem test_buildPower :
    command (.buildPower 8) (building 0x30) 10 = some ([0x22, 0x69, 7, 0x34, 0x12, 0x78, 0x56, 0x20, 0x30, 8], .ok) ∧
    next? (exec (.buildPower 9) (building 0x30)) = some { building 0x30 with cmbStatus := .unknownMode } ∧
    next? (exec (.buildPower 9) (building 0x11)) = some { building 0x11 with cmbStatus := .invalidOperation } := by
  decide +kernel

/-- T-CMB-20. -/
theorem test_buildSetTime : command (.buildSetTime 0x01020304 0x0A0B0C0D) (building 0x14) 17 =
    some ([0x22, 0x69, 0x0e, 0x34, 0x12, 0x78, 0x56, 0x20, 0x14, 4, 3, 2, 1, 0x0D, 0x0C, 0x0B, 0x0A], .ok) := by
  decide +kernel

/-- T-CMB-25 and T-CMB-1. -/
theorem test_buildByteCount :
    returned .buildByteCount tst = some (.byteCount 3) ∧
    returned .buildByteCount (building 0x20) = some (.byteCount 14) := by decide +kernel

/-- T-CMB-26 and T-RST-3. -/
theorem test_buildClear :
    next? (exec .buildClear (building 0x20)) = some { building 0x20 with cmbBuf := Memory.zero } ∧
    next? (exec .buildClear tst) = some tst := by decide +kernel

/-! ## The Frame Decoder -/

/-- T-FDC-1, T-FDC-3. -/
theorem test_describe_flash :
    returned (.describe (full (hdr 0x0d 0x20 ++ [0, 0, 0, 1, 0, 0xAA, 0xBB]))) tst =
      described (some .writeExt) (.writeExt 0 0x100 [0xAA, 0xBB]) 0x1234 0x5678 .cdh .ground ∧
    returned (.describe (full (hdr 0x0c 0x23 ++ [0, 0x12, 0x34, 0x56, 0x78, 0x80]))) tst =
      described (some .readExt) (.readExt 0 0x12345678 0x80) 0x1234 0x5678 .cdh .ground := by decide +kernel

/-- T-FDC-5, T-FDC-6, T-FDC-8, T-FDC-10, T-FDC-11. -/
theorem test_describe_others :
    returned (.describe (full [0x22, 0x69, 0x0e, 0x34, 0x12, 0x78, 0x56, 0x02, 0x14, 0, 5, 0xE6, 0x2C, 0, 0x9E, 0xF7, 0x0A]))
        tst = described (some .setTime) (.time 753272064 184000000) 0x1234 0x5678 .ground .cdh ∧
    returned (.describe (full [0x22, 0x69, 7, 0x34, 0x12, 0x78, 0x56, 0x02, 0xff, 1])) tst =
      described (some .nack) (.reason 1) 0x1234 0x5678 .ground .cdh ∧
    returned (.describe (full (hdr 7 0x30 ++ [9]))) tst =
      described (some .power) (.power 9 none) 0x1234 0x5678 .cdh .ground ∧
    returned (.describe (full [0x22, 0x69, 6, 1, 0, 2, 0, 0x4F, 0x42])) tst =
      described none .none 1 2 .unknown .unknown ∧
    returned (.describe (full [0, 0, 5, 0x34, 0x12, 0x78, 0x56, 0x20, 0x11, 0x41, 0x42])) tst =
      described (some .debug) (.text []) 0x1234 0x5678 .cdh .ground := by decide +kernel

/-! ## Steps and table words -/

/-- 00_scope.md R6: a step runs the oldest operation. -/
theorem test_step :
    next? (step { tst with pendingOps := [[0x01, 0x22], [0x02]] }) =
      some { tst with rxState := .awaitMarker1, rxBuf := [(0, 0x22)], pendingOps := [[0x02]] } := by decide +kernel

/-- spec/opcode_table.json's rows of fixed words: NACK 0xff, FEED 0x01, DESCRIBE 0x12. -/
theorem test_table_words :
    decodeTableWord 8 0xff = some (.nack { length := 6, hwId := 0, msgId := 0, route := 0, payload := [] }) ∧
    decodeTableWord 8 0x01 = some (.feed 0) ∧ decodeTableWord 8 0x11 = some .buildClear :=
  ⟨rfl, rfl, rfl⟩

/-! ## Witnesses: the hypotheses of each statement hold together

Where a statement has clauses over one input, each clause has its own state, at the edge of its range. -/

theorem testInstance_wf : OpcodeMap.testInstance.wf := by decide

theorem idle_tst : ParserIdle tst := ⟨rfl, fun _ => rfl⟩

theorem ready_withFrame (bs : List Byte) : ReadyToReply (withFrame bs) := ⟨rfl, rfl⟩

/-- The shortest legal frame, S3's. -/
theorem legal_hdr : LegalFrame (hdr 6 0xff) := by decide

/-- The longest legal frame. -/
theorem legal_longest : LegalFrame (hdr 0xff 0x11 ++ List.replicate 249 0) := by decide +kernel

theorem inv_tst : Inv tst :=
  ⟨⟨fun _ _ => rfl, ⟨rfl, rfl⟩, fun h => by simp [bytesStored, tst, State.reset] at h,
      fun h => by simp [bytesStored, tst, State.reset] at h⟩,
    by decide, by decide, by decide, by decide, by decide, .inl rfl, by decide, fun h => by cases h⟩

theorem inv_withFrame : Inv (withFrame (hdr 6 0xff)) := by
  refine ⟨⟨fun a ha => ?_, ⟨by decide +kernel, by decide +kernel, by decide +kernel, by decide +kernel,
    by decide +kernel⟩, fun _ => by decide +kernel,
    fun _ => by decide +kernel⟩, by decide +kernel, by decide, by decide, by decide, by decide, .inl rfl, by decide,
    fun h => by cases h⟩
  have ha : 9 ≤ a := ha
  show (Memory.zero.writeBytes 0 (hdr 6 0xff)).read a = 0
  rw [Memory.read_writeBytes_outside (.inr (by simpa [hdr] using ha))]
  rfl

theorem witness_OperationsDecodeAfterEncode :
    Instr.rxClear.frame? = none ∧ (Instr.replyGen true clk draw1).frame? = none := ⟨rfl, rfl⟩

theorem witness_FramesDecodeAfterEncode :
    OpcodeMap.testInstance.wf ∧ (Instr.nack frame6).frame? = some (.nack, frame6) ∧ (Instr.nack frame6).wf = true := by
  decide

theorem witness_OperationsEncodeAfterDecode : decodeOp [0x01, 0x22] = .ok (.feed 0x22) := rfl

theorem witness_FramesEncodeAfterDecode :
    decodeFrame OpcodeMap.testInstance true clk draw1 (hdr 6 0xff) = .ok (.nack frame6) := by decide +kernel

theorem witness_StepRunsTheOldestOperation :
    (State.pendingOps { tst with pendingOps := [[0x02]] } = [0x02] :: [] ∧ decodeOp [0x02] = .ok .rxClear) ∧
    tst.pendingOps = [] := ⟨⟨rfl, rfl⟩, rfl⟩

theorem witness_ReservedSelectorsHaveNoStep :
    State.pendingOps { tst with pendingOps := [[0x13]] } = (0x13 :: []) :: [] ∧
    ∀ b ∈ [0x00, 0x13, 0x1F], BitVec.toNat (b : Byte) = 0 ∨ (0x13 ≤ BitVec.toNat b ∧ BitVec.toNat b ≤ 0x1F) := by
  decide

theorem witness_OperandsOutOfRangeHaveNoStep :
    (State.pendingOps { tst with pendingOps := [0x04 :: 0x02 :: (bytesLE64 0 ++ bytesLE32 1000000000 ++ draw1.toList)] } =
        (0x04 :: 0x02 :: (bytesLE64 0 ++ bytesLE32 1000000000 ++ draw1.toList)) :: [] ∧
      1000000000 ≤ (1000000000 : BitVec 32).toNat ∧ 2 ≤ (2 : Byte).toNat) ∧
    (State.pendingOps { tst with pendingOps := [0x12 :: List.replicate 257 0] } = (0x12 :: List.replicate 257 0) :: [] ∧
      (List.replicate 257 (0 : Byte)).length ≠ 258) ∧
    (State.pendingOps { tst with pendingOps := [[0x06, 0, 0, 0, 0, 0, 15, 16]] } = [0x06, 0, 0, 0, 0, 0, 15, 16] :: [] ∧
      (16 ≤ (15 : Byte).toNat ∨ 16 ≤ (16 : Byte).toNat)) :=
  ⟨⟨rfl, by decide, by decide⟩, ⟨rfl, by rw [List.length_replicate]; decide⟩, rfl, by decide⟩

theorem witness_FeedInAwaitMarker0 : tst.rxState = .awaitMarker0 ∧ (0x22 : Byte) = 0x22 ∧ (0x23 : Byte) ≠ 0x22 := by
  decide

theorem witness_FeedInAwaitMarker1 :
    (receiving .awaitMarker1 [0x22] 0 0).rxState = .awaitMarker1 ∧ (0x22 : Byte) ≠ 0x69 := by decide

theorem witness_FeedInAwaitLength :
    (receiving .awaitLength [0x22, 0x69] 0 0).rxState = .awaitLength ∧ 6 ≤ (6 : Byte).toNat ∧
    6 ≤ (0xff : Byte).toNat ∧ (5 : Byte).toNat < 6 := by decide

theorem witness_FeedStoresTheHeaderBytes :
    ∀ q ∈ [RxState.awaitHwIdLow, .awaitHwIdHigh, .awaitMsgIdLow, .awaitMsgIdHigh, .awaitRoute],
    (receiving q [0x22, 0x69, 6] 9 9).rxState = q := by decide

theorem witness_FeedInAwaitOpcode :
    (receiving .awaitOpcode [0x22, 0x69, 7] 9 10).rxState = .awaitOpcode ∧
    (receiving .awaitOpcode [0x22, 0x69, 7] 9 10).rxCursor.toNat < (receiving .awaitOpcode [0x22, 0x69, 7] 9 10).rxEnd.toNat ∧
    (receiving .awaitOpcode [0x22, 0x69, 6] 9 9).rxEnd.toNat ≤ (receiving .awaitOpcode [0x22, 0x69, 6] 9 9).rxCursor.toNat := by
  decide

/-- The last byte of the longest frame, and the first of a frame of two. -/
theorem witness_FeedInAwaitPayload :
    (receiving .awaitPayload (hdr 255 0x11) 257 258).rxState = .awaitPayload ∧
    (receiving .awaitPayload (hdr 255 0x11) 257 258).rxCursor.toNat < 258 ∧
    (receiving .awaitPayload (hdr 255 0x11) 257 258).rxCursor.toNat + 1 =
      (receiving .awaitPayload (hdr 255 0x11) 257 258).rxEnd.toNat ∧
    (receiving .awaitPayload (hdr 8 0x11) 9 11).rxCursor.toNat + 1 ≠ (receiving .awaitPayload (hdr 8 0x11) 9 11).rxEnd.toNat := by
  decide

theorem witness_FeedInCompleteIsIgnored : (withFrame (hdr 6 0xff)).rxState = .complete := rfl

theorem witness_RxQueryReturnsCompletion :
    (withFrame (hdr 6 0xff)).rxState = .complete ∧ tst.rxState ≠ .complete := by decide

theorem witness_EveryFeedTakesOneStep : ParserInv tst ∧ ParserInv (withFrame (hdr 6 0xff)) :=
  ⟨inv_tst.parser, inv_withFrame.parser⟩

theorem witness_LegalFrameReachesComplete :
    LegalFrame (hdr 6 0xff) ∧ LegalFrame (hdr 0xff 0x11 ++ List.replicate 249 0) ∧ ParserIdle tst ∧
    8 < (hdr 6 0xff).length := ⟨legal_hdr, legal_longest, idle_tst, by decide⟩

theorem witness_NoiseWithoutMarkerIsSkipped :
    (∀ b ∈ ([0x00, 0x69, 0xff] : List Byte), b ≠ 0x22) ∧ LegalFrame (hdr 6 0xff) ∧ ParserIdle tst :=
  ⟨by decide, legal_hdr, idle_tst⟩

theorem witness_MarkerByteBeforeAFrameLosesIt :
    LegalFrame (hdr 6 0xff) ∧ (∀ b ∈ (hdr 6 0xff).tail, b ≠ 0x22) ∧ ParserIdle tst :=
  ⟨legal_hdr, by decide, idle_tst⟩

theorem witness_ReplyGenRunsTheInboundFrame :
    (tst.rxState ≠ .complete ∨ tst.txPending = true) ∧
    ReadyToReply (withFrame (hdr 6 0xff)) ∧ InboundIs .nack frame6 (withFrame (hdr 6 0xff)) := by decide +kernel

theorem witness_UnassignedOpcodeGetsNoReply :
    ReadyToReply (withFrame (hdr 6 0x42)) ∧
    ∀ n, (withFrame (hdr 6 0x42)).opcodes.valueOf n ≠ (withFrame (hdr 6 0x42)).rxBuf.read 8 :=
  ⟨ready_withFrame _, fun n => by cases n <;> decide +kernel⟩

theorem witness_AckAndNackFramesAreAnswered :
    ReadyToReply (withFrame (hdr 6 0x10)) ∧ InboundIs .ack frame6 (withFrame (hdr 6 0x10)) ∧
    InboundIs .nack frame6 (withFrame (hdr 6 0xff)) := by decide +kernel

theorem witness_FlashAndBootloaderFramesAreNacked :
    ReadyToReply (withFrame (hdr 6 0x20)) ∧
    ∀ p ∈ [((0x20 : Byte), OpName.writeExt), (0x21, .eraseSectorExt), (0x23, .readExt), (0x01, .blAck), (0x0f, .blNack),
      (0x00, .blPing), (0x0c, .blErase), (0x02, .blWritePage), (0x03, .blWritePageAddr32), (0x0b, .blJump)],
    InboundIs p.2 frame6 (withFrame (hdr 6 p.1)) := by decide +kernel

theorem witness_RebootSetTimeAndTelemFramesAreNacked :
    ReadyToReply (withFrame (hdr 6 0x12)) ∧
    ∀ p ∈ [((0x12 : Byte), OpName.reboot), (0x14, .setTime), (0x18, .telem)],
    InboundIs p.2 frame6 (withFrame (hdr 6 p.1)) := by decide +kernel

theorem witness_DebugFrameIsEchoed :
    frame6.wf ∧ Frame.wf { frame6 with length := 0xff, payload := List.replicate 249 0 } ∧
    ReadyToReply (withFrame (hdr 6 0x11)) ∧ InboundIs .debug frame6 (withFrame (hdr 6 0x11)) := by decide +kernel

theorem witness_DataFrameFillsTheAccumulator :
    frame6.wf ∧ Frame.wf { frame6 with length := 0xff, payload := List.replicate 249 0 } ∧
    ReadyToReply (withFrame (hdr 6 0x16)) ∧ InboundIs .data frame6 (withFrame (hdr 6 0x16)) := by decide +kernel

theorem witness_DataFrameInvokesTheCollaborator :
    frame6.wf ∧ ReadyToReply (withFrame (hdr 6 0x16)) ∧
    ∃ t, exec (.data frame6 true) (withFrame (hdr 6 0x16)) = .next t ∧ t.output = .applied [] ∧
      (withFrame (hdr 6 0x16)).output ≠ .applied [] :=
  ⟨by decide, ready_withFrame _, _, rfl, rfl, by decide⟩

theorem witness_PowerFrameIsNackedWithAReason :
    ReadyToReply (withFrame (hdr 7 0x30 ++ [8])) ∧
    InboundIs .power { frame6 with length := 7, payload := [8] } (withFrame (hdr 7 0x30 ++ [8])) := by decide +kernel

theorem witness_GetTelemFrameGetsAZeroStub :
    ReadyToReply (withFrame (hdr 6 0x17)) ∧ InboundIs .getTelem frame6 (withFrame (hdr 6 0x17)) := by decide +kernel

/-- The epoch itself, a nanosecond before it, and the last second that is non-negative read signed. -/
theorem witness_GetTimeFrameCarriesTheTime :
    ReadyToReply (withFrame (hdr 6 0x13)) ∧ InboundIs .getTime frame6 (withFrame (hdr 6 0x13)) ∧
    (946727935 * 10 ^ 9 + 815999999 < 946727935816000000 ∧ 946727935 * 10 ^ 9 + 816000000 = 946727935816000000 + 0 ∧
      (2 ^ 31 * 10 ^ 9 - 1) / 10 ^ 9 ≤ 2 ^ 31 - 1) := by decide +kernel

theorem witness_ReplyTakeClearsThePendingReply :
    State.txPending { tst with txPending := true } = true ∧ tst.txPending = false := ⟨rfl, rfl⟩

theorem witness_EveryReplyCarriesTheInboundHeader :
    Inv (withFrame (hdr 6 0xff)) ∧ ReadyToReply (withFrame (hdr 6 0xff)) ∧
    (∃ n, (withFrame (hdr 6 0xff)).opcodes.valueOf n = (withFrame (hdr 6 0xff)).rxBuf.read 8) ∧
    (next? (exec (.replyGen true clk draw1) (withFrame (hdr 6 0xff)))).isSome = true :=
  ⟨inv_withFrame, ready_withFrame _, ⟨.nack, by decide +kernel⟩, by decide +kernel⟩

theorem witness_RepliesCompleteAnotherParser :
    Inv (withFrame (hdr 6 0xff)) ∧ ReadyToReply (withFrame (hdr 6 0xff)) ∧
    (∃ n, (withFrame (hdr 6 0xff)).opcodes.valueOf n = (withFrame (hdr 6 0xff)).rxBuf.read 8) ∧
    (next? (exec (.replyGen true clk draw1) (withFrame (hdr 6 0xff)))).isSome = true ∧ ParserIdle tst :=
  ⟨inv_withFrame, ready_withFrame _, ⟨.nack, by decide +kernel⟩, by decide +kernel, idle_tst⟩

theorem witness_BuildNewConstructsACommand :
    tst.opcodes.wf ∧ tst.opcodes.valueOf .power = 0x30 ∧ ∀ n, tst.opcodes.valueOf n ≠ 0x42 :=
  ⟨testInstance_wf, rfl, fun n => by cases n <;> decide⟩

/-- No command, a command of another opcode, and one the setter accepts. -/
theorem witness_SettersCheckTheConstructedOpcode :
    setterOpcode (.buildPower 9) = some .power ∧ tst.cmbValid = false ∧
    ((building 0x11).cmbValid = true ∧ (building 0x11).cmbOpcode ≠ (building 0x11).opcodes.valueOf .power) := by decide

theorem witness_BuildDebugAndDataWriteThePayload :
    AcceptsSetter .debug (building 0x11) ∧ AcceptsSetter .data (building 0x16) ∧
    249 < (List.replicate 250 (0 : Byte)).length ∧ (List.replicate 249 (0 : Byte)).length ≤ 249 := by decide +kernel

theorem witness_BuildWriteExtWritesThePayload :
    AcceptsSetter .writeExt (building 0x20) ∧
    244 < (List.replicate 245 (0 : Byte)).length ∧ (List.replicate 244 (0 : Byte)).length ≤ 244 := by decide +kernel

theorem witness_BuildEraseAndReadExtWriteThePayload :
    AcceptsSetter .eraseSectorExt (building 0x21) ∧ AcceptsSetter .readExt (building 0x23) := by decide

theorem witness_BuildPagesWriteThePayload :
    AcceptsSetter .blWritePage (building 0x02) ∧ AcceptsSetter .blWritePageAddr32 (building 0x03) ∧
    (List.replicate 127 (0 : Byte)).length ≠ 128 ∧ (List.replicate 128 (0 : Byte)).length = 128 ∧
    (List.replicate 129 (0 : Byte)).length ≠ 128 := by decide +kernel

theorem witness_BuildPowerWritesTheMode :
    AcceptsSetter .power (building 0x30) ∧ 8 < (9 : Byte).toNat ∧ (8 : Byte).toNat ≤ 8 := by decide

theorem witness_BuildSetTimeWritesTheTime : AcceptsSetter .setTime (building 0x14) := by decide

theorem witness_SettersLeaveTheHeaderAlone :
    (setterOpcode (.buildPower 8)).isSome = true ∧ (3 < 9 ∧ 3 ≠ 2) ∧
    ∃ t u v, exec (.buildPower 8) (building 0x30) = .next t ∧ exec .buildClear (building 0x30) = .next u ∧
      exec (.buildPower 8) u = .next v := ⟨rfl, by decide, _, _, _, rfl, rfl, rfl⟩

theorem witness_BuilderIsIndependentOfTheOtherUnits :
    isBuilderOp .buildByteCount = true ∧ isBuilderOp (.buildPower 8) = true ∧
    (∃ t, exec (.buildPower 8) (building 0x30) = .next t) ∧
    SameCmb tst (withFrame (hdr 6 0xff)) ∧ (withFrame (hdr 6 0xff)).opcodes = tst.opcodes ∧
    (withFrame (hdr 6 0xff)).output = tst.output :=
  ⟨rfl, rfl, ⟨_, rfl⟩, ⟨rfl, rfl, rfl, rfl⟩, rfl, rfl⟩

theorem witness_BuiltCommandsCompleteAParser :
    (∀ i ∈ [Instr.buildPower 8, .buildDebug [0x41]], (setterOpcode i).isSome = true) ∧ ParserIdle tst :=
  ⟨by decide, idle_tst⟩

theorem witness_DescribeGivesTheHeaderFields :
    tst.opcodes.wf ∧ tst.opcodes.valueOf .nack = (full (hdr 6 0xff))[8] ∧
    (∀ n, tst.opcodes.valueOf n ≠ (full (hdr 6 0x42))[8]) ∧
    (full (hdr 6 0xff))[7].toNat / 16 = 2 ∧ (full (hdr 6 0xff))[7].toNat % 16 = 0 ∧
    4 ≤ (full [0, 0, 0, 0, 0, 0, 0, 0x44])[7].toNat / 16 ∧ 4 ≤ (full [0, 0, 0, 0, 0, 0, 0, 0x44])[7].toNat % 16 :=
  ⟨testInstance_wf, by decide +kernel, fun n => by cases n <;> decide +kernel, by decide +kernel, by decide +kernel,
    by decide +kernel, by decide +kernel⟩

/-- For every opcode there is a frame with its description. -/
theorem witness_DescribeGivesThePayloadFields :
    tst.opcodes.wf ∧ ∀ n, tst.opcodes.valueOf n = (full (hdr 6 (OpcodeMap.testInstance.valueOf n)))[8] ∧
      ∃ t d, exec (.describe (full (hdr 6 (OpcodeMap.testInstance.valueOf n)))) tst = .next t ∧
        t.output = .description d :=
  ⟨testInstance_wf, fun n => ⟨by cases n <;> decide +kernel, _, _, rfl, rfl⟩⟩

theorem witness_EveryStepKeepsTheInvariant :
    (Instr.nack frame6).wf = true ∧ Inv (withFrame (hdr 6 0xff)) ∧
    (next? (exec (.nack frame6) (withFrame (hdr 6 0xff)))).isSome = true ∧
    Inv tst ∧ (next? (step { tst with pendingOps := [[0x01, 0x22]] })).isSome = true :=
  ⟨by decide, inv_withFrame, by decide +kernel, inv_tst, by decide +kernel⟩

theorem witness_NothingFaultsUnderTheInvariant : Inv tst ∧ Inv (withFrame (hdr 6 0xff)) := ⟨inv_tst, inv_withFrame⟩

/-- For each clause an operation that does make the change. -/
theorem witness_EachBufferHasItsWriters :
    (∃ t, exec (.feed 0x22) tst = .next t ∧ t.rxBuf ≠ tst.rxBuf) ∧
    (∃ t, exec (.nack frame6) (withFrame (hdr 6 0xff)) = .next t ∧ t.txBuf ≠ (withFrame (hdr 6 0xff)).txBuf) ∧
    (∃ t, exec (.data { frame6 with length := 7, payload := [1] } true) (withFrame (hdr 7 0x16 ++ [1])) = .next t ∧
      t.accCount ≠ (withFrame (hdr 7 0x16 ++ [1])).accCount) ∧
    (∃ t, exec (.buildPower 8) (building 0x30) = .next t ∧ t.cmbBuf ≠ (building 0x30).cmbBuf) :=
  ⟨⟨_, rfl, by decide +kernel⟩, ⟨_, rfl, by decide +kernel⟩, ⟨_, rfl, by decide +kernel⟩, ⟨_, rfl, by decide +kernel⟩⟩

/-- For each clause an operation that does make the change. -/
theorem witness_StatusAndFlagsHaveTheirWriters :
    (∃ t, exec .replyTake tst = .next t ∧ t.rpgStatus ≠ tst.rpgStatus) ∧
    (∃ t, exec (.buildPower 8) tst = .next t ∧ t.cmbStatus ≠ tst.cmbStatus) ∧
    (∃ t, exec (.nack frame6) (withFrame (hdr 6 0xff)) = .next t ∧ t.txPending = true) ∧
    (∃ t, exec .replyTake { tst with txPending := true } = .next t ∧ t.txPending = false) ∧
    (∃ t, exec (.buildNew 0x30 0 0 0 0) tst = .next t ∧ t.cmbValid = true) ∧
    (∃ t, exec (.feed 0xff) (receiving .awaitOpcode [0x22, 0x69, 6] 9 9) = .next t ∧ rxComplete t = true) ∧
    (∃ t, exec .rxClear (withFrame (hdr 6 0xff)) = .next t ∧ rxComplete t = false) :=
  ⟨⟨_, rfl, by decide +kernel⟩, ⟨_, rfl, by decide +kernel⟩, ⟨_, rfl, by decide +kernel⟩, ⟨_, rfl, by decide +kernel⟩,
    ⟨_, rfl, by decide +kernel⟩, ⟨_, rfl, by decide +kernel⟩, ⟨_, rfl, by decide +kernel⟩⟩

end Sys2Proof.Tests
end

section
/-! PROOFS. The scope of one step: it runs the oldest operation the host has issued (00_scope.md R6,
R18). -/

namespace Sys2Proof.Machine

/-- The host has issued nothing, so nothing runs (00_scope.md R6). -/
theorem step_of_noPending {s : State} (hp : s.pendingOps = []) : step s = .refused .noOperation := by
  simp [step, hp]

/-- `takeOperation`, written out as an update of the queue and the output alone. -/
theorem takeOperation_eq (s : State) (rest : List (List Byte)) :
    takeOperation s rest = { s with pendingOps := rest, output := .none } := rfl

/-- Settles O8, by the two shapes of the host's queue: a decoded oldest operation, and none. -/
theorem stepRunsTheOldestOperation : Obligations.StepRunsTheOldestOperation := by
  unfold Obligations.StepRunsTheOldestOperation
  constructor
  · intro s op rest i hp hd
    rw [← takeOperation_eq]
    exact step_of_decode hp hd
  · intro s hp
    exact step_of_noPending hp

end Sys2Proof.Machine
end

section
/-! PROOFS. What an instruction can do, once: the shapes of the next state `exec` answers. Every frame
and every invariant of the whole block is a case analysis over them. -/

namespace Sys2Proof.Machine

/-- The instruction answers the inbound frame `f` of opcode `n`: the opcode's own instruction does, and
REPLY_GEN does with the frame in `rx_buf` (41_reply_generator.md R130). -/
abbrev AnswersFrame (i : Instr) (n : OpName) (f : Frame) (s : State) : Prop :=
  i.frame? = some (n, f) ∨
    (∃ a c d, i = .replyGen a c d) ∧ s.opcodes.valueOf n = s.rxBuf.read 8 ∧ f = frameAt s.rxBuf.read

/-- The next states of each instruction, one constructor per shape of update. -/
inductive Effect (s : State) : Instr → State → Prop
  | fed {b : Byte} {t : State} (h : exec (.feed b) s = .next t) : Effect s (.feed b) t
  | parserCleared : Effect s .rxClear (clearParser s)
  | returned {i : Instr} (o : Output) (hi : i = .rxQuery ∨ i = .buildByteCount ∨ ∃ f, i = .describe f) :
      Effect s i { s with output := o }
  | replyRefused {i : Instr} {e : Status}
      (hi : i = .replyTake ∨ (∃ a c d, i = .replyGen a c d) ∨ i.frame?.isSome = true)
      (he : e = .unsupportedOpcode ∨ e = .notReady) : Effect s i { s with rpgStatus := e }
  | replied {i : Instr} {n : OpName} {f : Frame} (a : Bool) (c : Clock) (d : TimeDraw)
      (hr : ReadyToReply s) (hf : AnswersFrame i n f s) :
      Effect s i (finishReply (armReply n f a c d { s with txBuf := Memory.zero }))
  | replyTaken (hp : s.txPending = true) :
      Effect s .replyTake { s with txPending := false, rpgStatus := .ok }
  | commandBuilt (opcode : Byte) (hwId msgId : BitVec 16) (src dst : BitVec 4) :
      Effect s (.buildNew opcode hwId msgId src dst)
        { s with
          cmbBuf := newCommand s.opcodes opcode hwId msgId src dst
          cmbOpcode := opcode, cmbValid := true, cmbStatus := .ok }
  | setterRefused {i : Instr} {n : OpName} {e : Status} (hi : setterOpcode i = some n)
      (he : e ≠ .unsupportedOpcode ∧ e ≠ .notReady) : Effect s i { s with cmbStatus := e }
  | setterWrote {i : Instr} {n : OpName} {p : List Byte} (hi : setterOpcode i = some n)
      (ha : AcceptsSetter n s) (hp : p.length ≤ PAYLOAD_CAP) :
      Effect s i { s with cmbBuf := putPayload p s.cmbBuf, cmbStatus := .ok }
  | commandCleared : Effect s .buildClear { s with cmbBuf := Memory.zero, cmbStatus := .ok }

variable {i : Instr} {s t : State}

theorem effect_of_frame {n : OpName} {f : Frame} (hf : i.frame? = some (n, f)) (h : exec i s = .next t) :
    Effect s i t := by
  obtain ⟨a, c, d, rfl⟩ := eq_ofFrame_of_frame? hf
  rw [exec_ofFrame] at h
  rcases answerFrame_cases h with rfl | ⟨hr, rfl⟩
  · exact .replyRefused (.inr (.inr (by simp [hf]))) (.inr rfl)
  · exact .replied a c d hr (.inl hf)

theorem effect_of_replyGen {a : Bool} {c : Clock} {d : TimeDraw} (h : exec (.replyGen a c d) s = .next t) :
    Effect s (.replyGen a c d) t := by
  rcases exec_replyGen_cases h with rfl | rfl | ⟨n, hn, hr, rfl⟩
  · exact .replyRefused (.inr (.inl ⟨a, c, d, rfl⟩)) (.inr rfl)
  · exact .replyRefused (.inr (.inl ⟨a, c, d, rfl⟩)) (.inl rfl)
  · exact .replied a c d hr (.inr ⟨⟨a, c, d, rfl⟩, hn, rfl⟩)

theorem effect_of_replyTake (h : exec .replyTake s = .next t) : Effect s .replyTake t := by
  have h : execReplyTake s = .next t := h
  unfold execReplyTake at h
  split at h <;> obtain rfl := Host.Outcome.next.inj h
  · exact .replyTaken ‹_›
  · exact .replyRefused (.inl rfl) (.inr rfl)

theorem effect_of_setter {n : OpName} (hi : setterOpcode i = some n) (h : exec i s = .next t) :
    Effect s i t := by
  obtain ⟨arg, p, hx, hp, harg⟩ := exec_setter hi
  rw [hx] at h
  rcases setter_cases h with ⟨e, rfl, he⟩ | ⟨ha, hn, rfl⟩
  · refine .setterRefused hi ?_
    rcases he with rfl | rfl | he
    · decide
    · decide
    · rcases harg e he with rfl | rfl | rfl <;> decide
  · exact .setterWrote hi ha (hp hn)

/-- Everything an instruction can do. -/
theorem exec_effect (h : exec i s = .next t) : Effect s i t := by
  cases i
  case feed => exact .fed h
  case replyGen => exact effect_of_replyGen h
  case replyTake => exact effect_of_replyTake h
  case rxClear => obtain rfl := Host.Outcome.next.inj h; exact .parserCleared
  case buildNew => obtain rfl := Host.Outcome.next.inj h; exact .commandBuilt ..
  case buildClear => obtain rfl := Host.Outcome.next.inj h; exact .commandCleared
  case rxQuery => obtain rfl := Host.Outcome.next.inj h; exact .returned _ (.inl rfl)
  case buildByteCount => obtain rfl := Host.Outcome.next.inj h; exact .returned _ (.inr (.inl rfl))
  case describe => obtain rfl := Host.Outcome.next.inj h; exact .returned _ (.inr (.inr ⟨_, rfl⟩))
  case buildDebug | buildData | buildWriteExt | buildEraseSectorExt | buildReadExt | buildWritePage
      | buildWritePageAddr32 | buildPower | buildSetTime => exact effect_of_setter rfl h
  all_goals exact effect_of_frame rfl h

/-- A setter is an operation of the Command Builder. -/
theorem isBuilderOp_of_setterOpcode {n : OpName} (hi : setterOpcode i = some n) : isBuilderOp i = true := by
  cases i <;> simp [setterOpcode, isBuilderOp] at hi ⊢

/-- Who answers a DATA frame: DATA itself, and REPLY_GEN with that opcode in `rx_buf[8]`. -/
theorem AnswersFrame.data {f : Frame} (h : AnswersFrame i .data f s) :
    (∃ f a, i = .data f a) ∨ (s.rxBuf.read 8 = s.opcodes.valueOf .data ∧ ∃ a c d, i = .replyGen a c d) := by
  rcases h with hf | ⟨hg, hn, -⟩
  · obtain ⟨a, _, _, hi⟩ := eq_ofFrame_of_frame? hf
    exact .inl ⟨f, a, hi⟩
  · exact .inr ⟨hn.symm, hg⟩

theorem AnswersFrame.isReply {n : OpName} {f : Frame} (h : AnswersFrame i n f s) :
    (∃ a c d, i = .replyGen a c d) ∨ i.frame?.isSome = true :=
  h.elim (fun hf => .inr (by simp [hf])) (fun hg => .inl hg.1)

/-- Settles O59, by the shapes of the next state. -/
theorem eachBufferHasItsWriters : Obligations.EachBufferHasItsWriters := by
  unfold Obligations.EachBufferHasItsWriters
  intro i s t h
  cases exec_effect h with
  | fed h =>
    obtain ⟨⟨htx, -, -⟩, ⟨hacc, hcount⟩, ⟨hcmb, -, -, -⟩, ⟨hop, hpend⟩, -⟩ := onlyRx_of_feed h
    simp [htx, hacc, hcount, hcmb, hop, hpend]
  | parserCleared => simp
  | returned o hi => simp
  | replyRefused hi he => simp
  | @replied _ n f a c d hr hf =>
    set u := { s with txBuf := Memory.zero }
    obtain ⟨hop, hpend⟩ := armReply_sameHost n f a c d u
    obtain ⟨-, hrx, -, -⟩ := armReply_sameRx n f a c d u
    obtain ⟨hcmb, -, -, -⟩ := armReply_sameCmb n f a c d u
    refine ⟨hop, hpend, fun hne => absurd hrx hne, fun _ => hf.isReply, fun hne => ?_, fun hne => absurd hcmb hne⟩
    obtain rfl : n = .data := by
      by_contra hn
      obtain ⟨⟨hacc, hcount⟩, -⟩ := armReply_sameAcc n f a c d u hn
      exact hne.elim (absurd hacc) (absurd hcount)
    exact hf.data
  | replyTaken hp => simp
  | commandBuilt => simp [isBuilderOp]
  | setterRefused hi he => simp
  | setterWrote hi ha hp => simp [isBuilderOp_of_setterOpcode hi]
  | commandCleared => simp [isBuilderOp]

end Sys2Proof.Machine
end

section
/-! PROOFS. The Receive Parser's invariant (10_state.md R28): a byte stored behind the bytes stored so
far keeps the buffer's clauses, and each parser state's FEED keeps the cursors'. -/

namespace Sys2Proof.Machine

variable {b : Byte} {s t : State}

/-- The parser's invariant speaks of the parser alone. -/
theorem ParserInv.of_sameRx (h : ParserInv s) (hs : SameRx s t) : ParserInv t := by
  obtain ⟨hq, hb, hc, he⟩ := hs
  have hn : bytesStored t = bytesStored s := by simp [bytesStored, hq, hc, he]
  have hcur : CursorsAgree t ↔ CursorsAgree s := by simp [CursorsAgree, hq, hb, hc, he]
  exact ⟨by simpa [hn, hb] using h.zeroBeyond, hcur.mpr h.cursors, by simpa [hn, hb] using h.marker0,
    by simpa [hn, hb] using h.marker1⟩

/-- A parser that awaits the first marker with a zero buffer and zero cursors meets the invariant. -/
theorem parserInv_of_cleared (hq : s.rxState = .awaitMarker0) (hb : ∀ a, s.rxBuf.read a = 0)
    (hc : s.rxCursor = 0) (he : s.rxEnd = 0) : ParserInv s := by
  have hn : bytesStored s = 0 := by simp [bytesStored, hq]
  refine ⟨fun a _ => hb a, ?_, by simp [hn], by simp [hn]⟩
  simp [CursorsAgree, hq, hc, he]

theorem parserInv_clearParser (s : State) : ParserInv (clearParser s) :=
  parserInv_of_cleared rfl (fun _ => rfl) rfl rfl

/-- A byte stored right behind the bytes stored so far keeps R28(a) and (f), if the first two bytes
are the markers. -/
theorem ParserInv.store (h : ParserInv s) {n : Nat} (hn : bytesStored s = n)
    (hb : t.rxBuf = s.rxBuf.write n b) (hn' : bytesStored t = n + 1) (h0 : n = 0 → b = MARKER0)
    (h1 : n = 1 → b = MARKER1) (hc : CursorsAgree t) : ParserInv t := by
  subst hn
  refine ⟨fun a ha => ?_, hc, fun _ => ?_, fun _ => ?_⟩
  · rw [hb, Memory.read_write_of_ne (by omega)]
    exact h.zeroBeyond a (by omega)
  · rw [hb, Memory.read_write]
    split
    · exact h0 (by omega)
    · exact h.marker0 (by omega)
  · rw [hb, Memory.read_write]
    split
    · exact h1 (by omega)
    · exact h.marker1 (by omega)

/-! ## FEED in each parser state -/

theorem parserInv_feedMarker0 (h : ParserInv s) (hq : s.rxState = .awaitMarker0) :
    ParserInv (feedMarker0 b s) := by
  have hn : bytesStored s = 0 := by simp [bytesStored, hq]
  have hc : s.rxCursor = 0 ∧ s.rxEnd = 0 := by simpa [CursorsAgree, hq] using h.cursors
  unfold feedMarker0
  split
  · exact h.store hn rfl rfl (fun _ => ‹_›) (by simp) hc
  · exact h

theorem parserInv_feedMarker1 (h : ParserInv s) (hq : s.rxState = .awaitMarker1) :
    ParserInv (feedMarker1 b s) := by
  have hn : bytesStored s = 1 := by simp [bytesStored, hq]
  have hc : s.rxCursor = 0 ∧ s.rxEnd = 0 := by simpa [CursorsAgree, hq] using h.cursors
  unfold feedMarker1
  split
  · exact h.store hn rfl rfl (by simp) (fun _ => ‹_›) hc
  · exact parserInv_clearParser s

theorem parserInv_feedLength (h : ParserInv s) (hq : s.rxState = .awaitLength) :
    ParserInv (feedLength b s) := by
  have hn : bytesStored s = 2 := by simp [bytesStored, hq]
  unfold feedLength
  split
  · refine h.store hn rfl rfl (by simp) (by simp) ?_
    have := b.isLt
    refine ⟨rfl, ?_, ?_⟩
    · simp [frameEnd]; omega
    · simpa
  · exact parserInv_clearParser s

/-- What R28(c) says of the cursors while the header bytes behind the length byte arrive. -/
abbrev HeaderCursors (s : State) : Prop :=
  s.rxCursor.toNat = 9 ∧ s.rxEnd.toNat = frameEnd (s.rxBuf.read 2) ∧ LEN_MIN ≤ (s.rxBuf.read 2).toNat

theorem HeaderCursors.storeRx {n : Nat} (h : HeaderCursors s) (hn : 2 < n) (b : Byte) (q : RxState) :
    HeaderCursors (storeRx s n b q) := by
  simpa only [HeaderCursors, storeRx_rxCursor, storeRx_rxEnd, storeRx_rxBuf,
    Memory.read_write_of_ne (Nat.ne_of_lt hn)] using h

/-- The states of the header bytes behind the length byte: the state that awaits one, its offset, the
state after it (40_receive_parser.md R105 to R109). -/
abbrev headerStates : List (RxState × Nat × RxState) :=
  [(.awaitHwIdLow, 3, .awaitHwIdHigh), (.awaitHwIdHigh, 4, .awaitMsgIdLow), (.awaitMsgIdLow, 5, .awaitMsgIdHigh),
    (.awaitMsgIdHigh, 6, .awaitRoute), (.awaitRoute, 7, .awaitOpcode)]

/-- A header byte leaves the length byte and the cursors. -/
theorem ParserInv.feedHeader (h : ParserInv s) {q q' : RxState} {k : Nat} (hq : s.rxState = q)
    (hk : (q, k, q') ∈ headerStates) : ∃ t, exec (.feed b) s = .next t ∧ ParserInv t := by
  refine ⟨_, exec_feed_header hq hk, ?_⟩
  simp only [List.mem_cons, Prod.mk.injEq, List.not_mem_nil, or_false] at hk
  rcases hk with ⟨rfl, rfl, rfl⟩ | ⟨rfl, rfl, rfl⟩ | ⟨rfl, rfl, rfl⟩ | ⟨rfl, rfl, rfl⟩ | ⟨rfl, rfl, rfl⟩ <;>
    have hc : HeaderCursors s := by simpa only [CursorsAgree, hq] using h.cursors
  all_goals
    exact h.store (by simp [bytesStored, hq]) rfl rfl (by omega) (by omega) (hc.storeRx (by decide) b _)

/-- A byte from the opcode's on: before `rx_end` R28(d) holds, at `rx_end` the frame is complete and
R28(e) does. -/
theorem ParserInv.storeFrameByte (h : ParserInv s) {n : Nat} (hn : bytesStored s = n) (h8 : 8 ≤ n)
    (hend : s.rxEnd.toNat = frameEnd (s.rxBuf.read 2)) (hle : n + 1 ≤ s.rxEnd.toNat)
    (hb : t.rxBuf = s.rxBuf.write n b) (hc : t.rxCursor.toNat = n + 1) (he : t.rxEnd = s.rxEnd)
    (hq : t.rxState = if n + 1 = s.rxEnd.toNat then .complete else .awaitPayload) : ParserInv t := by
  have hkeep (k : Nat) (hk : k < 8) : t.rxBuf.read k = s.rxBuf.read k := by
    rw [hb, Memory.read_write_of_ne (by omega)]
  have hend' : t.rxEnd.toNat = frameEnd (t.rxBuf.read 2) := by rw [he, hkeep 2 (by decide), hend]
  split at hq
  · rename_i hlast
    have hlen : 6 ≤ (t.rxBuf.read 2).toNat := by
      rw [he, frameEnd] at hend'
      omega
    refine h.store hn hb (by simp [bytesStored, hq, he, hlast]) (by omega) (by omega) ?_
    simp only [CursorsAgree, hq]
    refine ⟨BitVec.eq_of_toNat_eq (by rw [hc, he, hlast]), hend', ?_, ?_, hlen⟩
    · rw [hkeep 0 (by decide)]
      exact h.marker0 (by omega)
    · rw [hkeep 1 (by decide)]
      exact h.marker1 (by omega)
  · rename_i hmore
    refine h.store hn hb (by simp [bytesStored, hq, hc]) (by omega) (by omega) ?_
    simp only [CursorsAgree, hq, hc, he]
    have hmax : s.rxEnd.toNat ≤ 258 := by
      rw [hend, frameEnd]
      omega
    exact ⟨by omega, by omega, he ▸ hend', hmax⟩

theorem parserInv_feedOpcode (h : ParserInv s) (hq : s.rxState = .awaitOpcode) :
    ParserInv (feedOpcode b s) := by
  obtain ⟨hcur, hend, hlen⟩ : HeaderCursors s := by simpa only [CursorsAgree, hq] using h.cursors
  have h9 : 9 ≤ s.rxEnd.toNat := by
    rw [hend, frameEnd]
    exact Nat.add_le_add_right hlen 3
  refine h.storeFrameByte (by simp [bytesStored, hq]) le_rfl hend h9 rfl hcur rfl ?_
  simp only [feedOpcode, storeRx_rxState, BitVec.lt_def, hcur]
  rcases Nat.lt_or_eq_of_le h9 with hlt | heq
  · rw [if_pos hlt, if_neg hlt.ne]
  · rw [if_neg heq.not_lt, if_pos heq]

/-- In AwaitPayload `rx_cursor` is inside the buffer (R28(d)), so FEED has a next state. -/
theorem ParserInv.feedPayload (h : ParserInv s) (hq : s.rxState = .awaitPayload) :
    ∃ t, exec (.feed b) s = .next t ∧ ParserInv t := by
  obtain ⟨h9, hlt, hend, hmax⟩ : 9 ≤ s.rxCursor.toNat ∧ s.rxCursor.toNat < s.rxEnd.toNat ∧
      s.rxEnd.toNat = frameEnd (s.rxBuf.read 2) ∧ s.rxEnd.toNat ≤ FRAME_CAP := by
    simpa only [CursorsAgree, hq] using h.cursors
  have hsucc : (s.rxCursor + 1).toNat = s.rxCursor.toNat + 1 := by
    have := s.rxEnd.isLt
    simp
    omega
  refine ⟨_, exec_feed_payload hq (by omega), h.storeFrameByte (by simp [bytesStored, hq]) (by omega) hend
    hlt rfl hsucc rfl ?_⟩
  simp only [← hsucc, BitVec.toNat_inj]

/-- FEED has a next state, and it meets R28 (40_receive_parser.md R115). -/
theorem ParserInv.feed (h : ParserInv s) (b : Byte) : ∃ t, exec (.feed b) s = .next t ∧ ParserInv t := by
  cases hq : s.rxState with
  | awaitMarker0 => exact ⟨_, exec_feed_marker0 hq, parserInv_feedMarker0 h hq⟩
  | awaitMarker1 => exact ⟨_, exec_feed_marker1 hq, parserInv_feedMarker1 h hq⟩
  | awaitLength => exact ⟨_, exec_feed_length hq, parserInv_feedLength h hq⟩
  | awaitHwIdLow => exact h.feedHeader (k := 3) (q' := .awaitHwIdHigh) hq (by decide)
  | awaitHwIdHigh => exact h.feedHeader (k := 4) (q' := .awaitMsgIdLow) hq (by decide)
  | awaitMsgIdLow => exact h.feedHeader (k := 5) (q' := .awaitMsgIdHigh) hq (by decide)
  | awaitMsgIdHigh => exact h.feedHeader (k := 6) (q' := .awaitRoute) hq (by decide)
  | awaitRoute => exact h.feedHeader (k := 7) (q' := .awaitOpcode) hq (by decide)
  | awaitOpcode => exact ⟨_, exec_feed_opcode hq, parserInv_feedOpcode h hq⟩
  | awaitPayload => exact h.feedPayload hq
  | complete => exact ⟨s, exec_feed_complete hq, h⟩

/-- Settles O22, by the parser's state. -/
theorem everyFeedTakesOneStep : Obligations.EveryFeedTakesOneStep := by
  unfold Obligations.EveryFeedTakesOneStep
  intro b s h
  obtain ⟨t, ht, hinv⟩ := h.feed b
  exact ⟨t, ht, hinv, onlyRx_of_feed ht⟩

end Sys2Proof.Machine
end

section
/-! PROOFS. The values after reset (10_state.md R43) and the numbers the host reads (R23, 60_exceptions.md
R241). -/

namespace Sys2Proof.Machine

/-- Settles O11, field by field. -/
theorem resetLeavesTheSpecifiedState : Obligations.ResetLeavesTheSpecifiedState := by
  unfold Obligations.ResetLeavesTheSpecifiedState
  exact ⟨rfl, Memory.read_zero, rfl, rfl, Memory.read_zero, rfl, rfl, Memory.read_zero, rfl, Memory.read_zero,
    rfl, rfl, rfl, rfl⟩

/-- Settles O12, by the codes of the two enumerations. -/
theorem statesAndStatusesHaveTheirNumbers : Obligations.StatesAndStatusesHaveTheirNumbers := by
  unfold Obligations.StatesAndStatusesHaveTheirNumbers
  exact fun s => ⟨rfl, rfl, rfl⟩

end Sys2Proof.Machine
end

section
/-! PROOFS. What an instruction leaves of the buffers: each stays canonical and inside its capacity
(20_memory.md R60), and a reply is a legal frame (41_reply_generator.md R160(a)). -/

namespace Sys2Proof.Machine

variable {m : Memory} {a cap : Nat} {v b : Byte} {bs : List Byte} {i : Instr} {n : OpName} {f : Frame} {s t : State}

/-! ## Buffers and frames -/

theorem Memory.ok_zero (cap : Nat) : Memory.zero.ok cap := ⟨Memory.wf_zero, Memory.within_zero⟩

theorem Memory.ok_write (h : m.ok cap) (ha : a < cap) : (m.write a v).ok cap :=
  ⟨Memory.wf_write h.1, Memory.within_write h.2 ha⟩

theorem Memory.ok_writeBytes (h : m.ok cap) (ha : a + bs.length ≤ cap) : (m.writeBytes a bs).ok cap :=
  ⟨Memory.wf_writeBytes h.1, Memory.within_writeBytes h.2 ha⟩

theorem newCommand_ok (m : OpcodeMap) (opcode : Byte) (hwId msgId : BitVec 16) (src dst : BitVec 4) :
    (newCommand m opcode hwId msgId src dst).ok FRAME_CAP := by
  refine Memory.ok_writeBytes (Memory.ok_writeBytes (Memory.ok_writeBytes (Memory.ok_writeBytes
    (Memory.ok_zero _) ?_) ?_) ?_) ?_ <;> simp [FRAME_CAP]

theorem putPayload_ok (h : m.ok FRAME_CAP) (hp : bs.length ≤ PAYLOAD_CAP) : (putPayload bs m).ok FRAME_CAP :=
  Memory.ok_write (Memory.ok_writeBytes h (Nat.add_le_add_left hp 9)) (by decide)

/-- A legal frame's payload is at most 249 bytes (30_encoding.md R73). -/
theorem Frame.wf.payload_le (h : f.wf) : f.payload.length ≤ PAYLOAD_CAP := by
  obtain ⟨-, hp⟩ := h
  simp only [HDR_AFTER_LEN, PAYLOAD_CAP] at hp ⊢
  omega

theorem payloadLength_le (l : Byte) : payloadLength l ≤ ACC_CAP := by
  simp only [payloadLength, HDR_AFTER_LEN, ACC_CAP]
  omega

/-- The frame read from a buffer is legal if its length byte is at least 6. -/
theorem frameAt_wf {g : Nat → Byte} (h : LEN_MIN ≤ (g 2).toNat) : (frameAt g).wf := by
  refine ⟨h, ?_⟩
  simp only [frameAt, length_slice, frameEnd, PAYLOAD_OFF, HDR_AFTER_LEN]
  omega

/-- The frame an instruction answers is legal: its own operand, or what a complete parser holds (R28(e)). -/
theorem AnswersFrame.frame_wf (h : AnswersFrame i n f s) (hi : i.wf = true) (hs : ParserInv s)
    (hr : ReadyToReply s) : f.wf := by
  rcases h with hf | ⟨-, -, rfl⟩
  · simpa [Instr.wf, hf] using hi
  · obtain ⟨-, -, -, -, hlen⟩ : s.rxCursor = s.rxEnd ∧ s.rxEnd.toNat = frameEnd (s.rxBuf.read 2) ∧
        s.rxBuf.read 0 = MARKER0 ∧ s.rxBuf.read 1 = MARKER1 ∧ LEN_MIN ≤ (s.rxBuf.read 2).toNat := by
      simpa only [CursorsAgree, hr.1] using hs.cursors
    exact frameAt_wf hlen

/-! ## What FEED leaves of `rx_buf` -/

theorem rxOk_of_feed (h : s.rxBuf.ok FRAME_CAP) (hx : exec (.feed b) s = .next t) : t.rxBuf.ok FRAME_CAP := by
  have hx : execFeed b s = .next t := hx
  cases hq : s.rxState <;> simp only [execFeed, hq] at hx
  case awaitPayload =>
    unfold feedPayload at hx
    split at hx
    · obtain rfl := Host.Outcome.next.inj hx
      exact Memory.ok_write h ‹_›
    · cases hx
  all_goals obtain rfl := Host.Outcome.next.inj hx
  case complete => exact h
  case awaitMarker0 =>
    unfold feedMarker0
    split
    · exact Memory.ok_write h (by decide)
    · exact h
  case awaitMarker1 =>
    unfold feedMarker1
    split
    · exact Memory.ok_write h (by decide)
    · exact Memory.ok_zero _
  case awaitLength =>
    unfold feedLength
    split
    · exact Memory.ok_write h (by decide)
    · exact Memory.ok_zero _
  all_goals exact Memory.ok_write h (by decide)

/-! ## What a reply leaves of `tx_buf` and the accumulator -/

section
variable (a : Bool) (c : Clock) (d : TimeDraw)

theorem timePayload_eq_writeBytes (m : Memory) :
    ∃ p, timePayload c d m = m.writeBytes 9 p ∧ p.length = 8 := by
  unfold timePayload
  split
  · exact ⟨_, (Memory.writeBytes_append m 9 (bytesLE32 _) (bytesLE32 _)).symm, rfl⟩
  · exact ⟨_, rfl, by simp⟩

/-- Every arm writes a header with a legal length byte, and a payload that fits behind it. -/
theorem armReply_txBuf (hf : f.wf) : ∃ l op p, 6 ≤ l.toNat ∧ p.length ≤ PAYLOAD_CAP ∧
    (armReply n f a c d s).txBuf = (replyHeader f l op s.txBuf).writeBytes PAYLOAD_OFF p := by
  cases n
  case debug =>
    refine ⟨f.length, _, _, hf.1, ?_, rfl⟩
    exact (List.length_take_le' _ _).trans (Frame.wf.payload_le hf)
  case power => exact ⟨0x07, _, [0x01], by decide, by decide, rfl⟩
  case getTelem => exact ⟨0x54, _, [], by decide, by decide, rfl⟩
  case getTime =>
    obtain ⟨p, hp, hlen⟩ := timePayload_eq_writeBytes c d (replyHeader f 0x0e (s.opcodes.valueOf .setTime) s.txBuf)
    exact ⟨0x0e, _, p, by decide, hlen ▸ by decide, hp⟩
  case ack | data => exact ⟨0x06, _, [], by decide, by decide, rfl⟩
  all_goals exact ⟨0x06, s.opcodes.valueOf .nack, [], by decide, by decide, rfl⟩

/-- A pending reply is a legal frame inside the buffer (41_reply_generator.md R160(a)). -/
theorem armReply_txOk (hf : f.wf) (h : s.txBuf.ok FRAME_CAP) :
    (armReply n f a c d s).txBuf.ok FRAME_CAP ∧ HoldsLegalFrame (armReply n f a c d s).txBuf := by
  obtain ⟨l, op, p, hl, hp, ht⟩ := armReply_txBuf (n := n) (s := s) a c d hf
  rw [ht]
  refine ⟨Memory.ok_writeBytes (Memory.ok_writeBytes h (by simp [FRAME_CAP])) (Nat.add_le_add_left hp 9), ?_⟩
  have hhdr (k : Nat) (hk : k < 9) : ((replyHeader f l op s.txBuf).writeBytes PAYLOAD_OFF p).read k =
      (replyHeader f l op s.txBuf).read k := Memory.read_writeBytes_outside (.inl hk)
  simpa [HoldsLegalFrame, hhdr, read_replyHeader] using hl

/-- DATA writes at most 249 bytes from index 0; no other arm writes the accumulator. -/
theorem armReply_accOk (h : s.accBuf.ok ACC_CAP) (hc : s.accCount.toNat ≤ ACC_CAP) :
    (armReply n f a c d s).accBuf.ok ACC_CAP ∧ (armReply n f a c d s).accCount.toNat ≤ ACC_CAP := by
  by_cases hn : n = .data
  · subst hn
    have hp := payloadLength_le f.length
    constructor
    · show (s.accBuf.writeBytes 0 (f.payload.take (payloadLength f.length))).ok ACC_CAP
      refine Memory.ok_writeBytes h ?_
      rw [Nat.zero_add]
      exact (List.length_take_le _ _).trans hp
    · show (BitVec.ofNat 8 (payloadLength f.length)).toNat ≤ ACC_CAP
      exact (BitVec.toNat_ofNat .. ▸ Nat.mod_le _ _).trans hp
  · obtain ⟨⟨hacc, hcount⟩, -⟩ := armReply_sameAcc n f a c d s hn
    exact ⟨hacc ▸ h, hcount ▸ hc⟩

end

end Sys2Proof.Machine
end

section
/-! PROOFS. The invariant of the block: it holds at reset, and every well-formed instruction and every
step keep it. -/

namespace Sys2Proof.Machine

variable {bs : List Byte} {i : Instr} {n : OpName} {f : Frame} {s t : State}

/-- Settles O57: the cleared parser meets R28, and every buffer is zero. -/
theorem resetMeetsTheInvariant : Obligations.ResetMeetsTheInvariant where
  parser := parserInv_of_cleared rfl Memory.read_zero rfl rfl
  rxOk := Memory.ok_zero _
  txOk := Memory.ok_zero _
  accOk := Memory.ok_zero _
  cmbOk := Memory.ok_zero _
  accCount := Nat.zero_le _
  rpgStatus := .inl rfl
  cmbStatus := by decide
  reply := fun h => nomatch h

/-! ## The invariant, unit by unit -/

/-- The invariant speaks of the four units alone: not of the queue, of the assignment or of what an
operation returns. -/
theorem Inv.of_sameUnits (h : Inv s) (hrx : SameRx s t) (hrpg : SameRpg s t) (hacc : SameAcc s t)
    (hcmb : SameCmb s t) : Inv t := by
  obtain ⟨-, hb, -, -⟩ := id hrx
  obtain ⟨htx, hpend, hst⟩ := hrpg
  obtain ⟨ha, hn⟩ := hacc
  obtain ⟨hm, -, -, hcst⟩ := hcmb
  exact ⟨h.parser.of_sameRx hrx, hb ▸ h.rxOk, htx ▸ h.txOk, ha ▸ h.accOk, hm ▸ h.cmbOk, hn ▸ h.accCount,
    hst ▸ h.rpgStatus, hcst ▸ h.cmbStatus, htx ▸ hpend ▸ h.reply⟩

theorem Inv.of_onlyRx (h : Inv s) (ho : OnlyRx s t) (hp : ParserInv t) (hb : t.rxBuf.ok FRAME_CAP) : Inv t := by
  obtain ⟨⟨htx, hpend, hst⟩, ⟨ha, hn⟩, ⟨hm, -, -, hcst⟩, -, -⟩ := ho
  exact ⟨hp, hb, htx ▸ h.txOk, ha ▸ h.accOk, hm ▸ h.cmbOk, hn ▸ h.accCount, hst ▸ h.rpgStatus,
    hcst ▸ h.cmbStatus, htx ▸ hpend ▸ h.reply⟩

theorem Inv.of_onlyRpg (h : Inv s) (ho : OnlyRpg s t) (htx : t.txBuf.ok FRAME_CAP)
    (hst : t.rpgStatus = .ok ∨ t.rpgStatus = .unsupportedOpcode ∨ t.rpgStatus = .notReady)
    (hr : t.txPending = true → HoldsLegalFrame t.txBuf) : Inv t := by
  obtain ⟨hrx, ⟨ha, hn⟩, ⟨hm, -, -, hcst⟩, -, -⟩ := ho
  exact ⟨h.parser.of_sameRx hrx, hrx.2.1 ▸ h.rxOk, htx, ha ▸ h.accOk, hm ▸ h.cmbOk, hn ▸ h.accCount, hst,
    hcst ▸ h.cmbStatus, hr⟩

theorem Inv.of_onlyCmb (h : Inv s) (ho : OnlyCmb s t) (hm : t.cmbBuf.ok FRAME_CAP)
    (hcst : t.cmbStatus ≠ .unsupportedOpcode ∧ t.cmbStatus ≠ .notReady) : Inv t := by
  obtain ⟨hrx, ⟨htx, hpend, hst⟩, ⟨ha, hn⟩, -, -⟩ := ho
  exact ⟨h.parser.of_sameRx hrx, hrx.2.1 ▸ h.rxOk, htx ▸ h.txOk, ha ▸ h.accOk, hm, hn ▸ h.accCount,
    hst ▸ h.rpgStatus, hcst, htx ▸ hpend ▸ h.reply⟩

theorem Inv.replied (h : Inv s) (hf : f.wf) (a : Bool) (c : Clock) (d : TimeDraw) :
    Inv (finishReply (armReply n f a c d { s with txBuf := Memory.zero })) := by
  set u := { s with txBuf := Memory.zero }
  have hrx : SameRx s (finishReply (armReply n f a c d u)) := armReply_sameRx n f a c d u
  obtain ⟨hm, -, -, hcst⟩ := armReply_sameCmb n f a c d u
  obtain ⟨htx, hlegal⟩ := armReply_txOk (n := n) (s := u) a c d hf (Memory.ok_zero _)
  obtain ⟨hacc, hcount⟩ := armReply_accOk (n := n) (f := f) (s := u) a c d h.accOk h.accCount
  exact ⟨h.parser.of_sameRx hrx, hrx.2.1 ▸ h.rxOk, htx, hacc, hm ▸ h.cmbOk, hcount, .inl rfl,
    hcst ▸ h.cmbStatus, fun _ => hlegal⟩

/-! ## Every instruction and every step -/

theorem onlyRpg_update (s : State) (tx : Memory) (p : Bool) (e : Status) :
    OnlyRpg s { s with txBuf := tx, txPending := p, rpgStatus := e } :=
  ⟨⟨rfl, rfl, rfl, rfl⟩, ⟨rfl, rfl⟩, ⟨rfl, rfl, rfl, rfl⟩, ⟨rfl, rfl⟩, rfl⟩

theorem onlyCmb_update (s : State) (m : Memory) (v : Bool) (op : Byte) (e : Status) :
    OnlyCmb s { s with cmbBuf := m, cmbValid := v, cmbOpcode := op, cmbStatus := e } :=
  ⟨⟨rfl, rfl, rfl, rfl⟩, ⟨rfl, rfl, rfl⟩, ⟨rfl, rfl⟩, ⟨rfl, rfl⟩, rfl⟩

/-- Every well-formed instruction keeps the invariant. -/
theorem Inv.exec (h : Inv s) (hi : i.wf = true) (hx : exec i s = .next t) : Inv t := by
  cases exec_effect hx with
  | fed hx =>
    obtain ⟨u, hu, hinv⟩ := h.parser.feed ‹_›
    obtain rfl : t = u := Host.Outcome.next.inj (hx.symm.trans hu)
    exact h.of_onlyRx (onlyRx_of_feed hx) hinv (rxOk_of_feed h.rxOk hx)
  | parserCleared =>
    obtain ⟨-, -, -, -, ho⟩ := parserCleared_clearParser s
    exact h.of_onlyRx ho (parserInv_clearParser s) (Memory.ok_zero _)
  | returned o => exact h.of_sameUnits ⟨rfl, rfl, rfl, rfl⟩ ⟨rfl, rfl, rfl⟩ ⟨rfl, rfl⟩ ⟨rfl, rfl, rfl, rfl⟩
  | replyRefused _ he => exact h.of_onlyRpg (onlyRpg_update ..) h.txOk (.inr he) h.reply
  | replied a c d hr hf => exact h.replied (hf.frame_wf hi h.parser hr) a c d
  | replyTaken => exact h.of_onlyRpg (onlyRpg_update ..) h.txOk (.inl rfl) (fun hp => nomatch hp)
  | commandBuilt => exact h.of_onlyCmb (onlyCmb_update ..) (newCommand_ok ..) (by simp)
  | setterRefused _ he => exact h.of_onlyCmb (onlyCmb_update ..) h.cmbOk he
  | setterWrote _ _ hp => exact h.of_onlyCmb (onlyCmb_update ..) (putPayload_ok h.cmbOk hp) (by simp)
  | commandCleared => exact h.of_onlyCmb (onlyCmb_update ..) (Memory.ok_zero _) (by simp)

/-- A host operation carries no frame, so it is well formed (30_encoding.md R90). -/
theorem frame?_of_decodeOp (h : decodeOp bs = .ok i) : i.frame? = none := by
  unfold decodeOp at h
  split at h
  case h_1 => cases h
  case h_2 =>
    split at h
    case h_19 => cases h
    case h_7 | h_8 =>
      cases h
      rfl
    all_goals
      simp only [decodeFeed, decodePlain, decodeReplyGen, decodeBuildNew, decodeBuildWriteExt,
        decodeBuildEraseSectorExt, decodeBuildReadExt, decodeBuildWritePage, decodeBuildWritePageAddr32,
        decodeBuildPower, decodeBuildSetTime, decodeDescribe] at h
      repeat' split at h
      all_goals cases h
      all_goals rfl

theorem wf_of_decodeOp (h : decodeOp bs = .ok i) : i.wf = true := by
  simp [Instr.wf, frame?_of_decodeOp h]

/-- Settles O56: a step runs a decoded host operation, which is well formed, in a state that differs in
the queue and the output alone. -/
theorem everyStepKeepsTheInvariant : Obligations.EveryStepKeepsTheInvariant := by
  unfold Obligations.EveryStepKeepsTheInvariant
  refine ⟨fun i s t hi h hx => h.exec hi hx, fun s t h hstep => ?_⟩
  obtain ⟨op, rest, i, -, hd, hx⟩ := step_cases hstep
  have htaken : Inv (takeOperation s rest) :=
    h.of_sameUnits ⟨rfl, rfl, rfl, rfl⟩ ⟨rfl, rfl, rfl⟩ ⟨rfl, rfl⟩ ⟨rfl, rfl, rfl, rfl⟩
  exact htaken.exec (wf_of_decodeOp hd) hx

end Sys2Proof.Machine
end

section
/-! PROOFS. The encoding of host operations (30_encoding.md R88, R90, R91; bytes laid as log entry 3
lays them): each operand decoder reads back what `encode` writes, and accepts nothing else. -/

namespace Sys2Proof

variable {m : OpcodeMap} {i : Instr} {selector : Byte} {ops bs : List Byte}

/-! ## The operand decoders read back what is written -/

theorem TimeDraw.eq_bytes (d : TimeDraw) : d = #v[d[0], d[1], d[2], d[3], d[4], d[5], d[6], d[7]] := by
  ext k hk
  interval_cases k <;> rfl

theorem decodeReplyGen_written (a : Bool) (c : Clock) (d : TimeDraw) :
    decodeReplyGen ((if a then 1 else 0) ::
      (bytesLE64 c.sec ++ bytesLE32 (BitVec.ofNat 32 c.ns.val) ++ d.toList)) = .ok (.replyGen a c d) := by
  have hd : d.toList = [d[0], d[1], d[2], d[3], d[4], d[5], d[6], d[7]] :=
    congrArg Vector.toList (TimeDraw.eq_bytes d)
  simp only [hd, bytesLE64, bytesLE32, List.cons_append, List.nil_append, decodeReplyGen, bitOperand_ok,
    num32_byteOf, num64_byteOf, nanosOperand_ok, ← TimeDraw.eq_bytes]

theorem decodeBuildNew_written (opcode : Byte) (hwId msgId : BitVec 16) (src dst : BitVec 4) :
    decodeBuildNew (opcode :: (bytesLE16 hwId ++ bytesLE16 msgId ++
      [BitVec.ofNat 8 src.toNat, BitVec.ofNat 8 dst.toNat])) = .ok (.buildNew opcode hwId msgId src dst) := by
  simp [bytesLE16, decodeBuildNew, nibbleOperand_ok, num16_byteOf]

theorem decodeBuildWriteExt_written (address : BitVec 32) (data : List Byte) (flashId : Byte) :
    decodeBuildWriteExt (bytesLE32 address ++ (data ++ [flashId])) = .ok (.buildWriteExt address data flashId) := by
  simp [bytesLE32, decodeBuildWriteExt, num32_byteOf]

theorem decodeBuildEraseSectorExt_written (address : BitVec 32) (flashId : Byte) :
    decodeBuildEraseSectorExt (bytesLE32 address ++ [flashId]) = .ok (.buildEraseSectorExt address flashId) := by
  simp [bytesLE32, decodeBuildEraseSectorExt, num32_byteOf]

theorem decodeBuildReadExt_written (address : BitVec 32) (dataLength flashId : Byte) :
    decodeBuildReadExt (bytesLE32 address ++ [dataLength, flashId]) =
      .ok (.buildReadExt address dataLength flashId) := by
  simp [bytesLE32, decodeBuildReadExt, num32_byteOf]

theorem decodeBuildWritePageAddr32_written (address : BitVec 32) (pageData : List Byte) :
    decodeBuildWritePageAddr32 (bytesLE32 address ++ pageData) = .ok (.buildWritePageAddr32 address pageData) := by
  simp [bytesLE32, decodeBuildWritePageAddr32, num32_byteOf]

theorem decodeBuildSetTime_written (seconds nanoseconds : BitVec 32) :
    decodeBuildSetTime (bytesLE32 seconds ++ bytesLE32 nanoseconds) = .ok (.buildSetTime seconds nanoseconds) := by
  simp [bytesLE32, decodeBuildSetTime, num32_byteOf]

theorem decodeDescribe_written (frame : Vector Byte FRAME_CAP) :
    decodeDescribe frame.toList = .ok (.describe frame) := by
  simp [decodeDescribe, Vector.toList]

/-- Settles O4, by the instruction: the selector chooses the operand decoder, which reads back what
was written. -/
theorem operationsDecodeAfterEncode : Obligations.OperationsDecodeAfterEncode := by
  unfold Obligations.OperationsDecodeAfterEncode
  intro m i hi
  cases i
  case feed | rxClear | rxQuery | replyTake | buildDebug | buildData | buildWritePage | buildPower
      | buildByteCount | buildClear => rfl
  case replyGen a c d => exact decodeReplyGen_written a c d
  case buildNew opcode hwId msgId src dst => exact decodeBuildNew_written opcode hwId msgId src dst
  case buildWriteExt address data flashId => exact decodeBuildWriteExt_written address data flashId
  case buildEraseSectorExt address flashId => exact decodeBuildEraseSectorExt_written address flashId
  case buildReadExt address dataLength flashId => exact decodeBuildReadExt_written address dataLength flashId
  case buildWritePageAddr32 address pageData => exact decodeBuildWritePageAddr32_written address pageData
  case buildSetTime seconds nanoseconds => exact decodeBuildSetTime_written seconds nanoseconds
  case describe frame => exact decodeDescribe_written frame
  all_goals cases hi

/-! ## What an operand decoder accepts is what is written -/

theorem encode_of_decodeFeed (h : decodeFeed ops = .ok i) : encode m i = 0x01 :: ops := by
  unfold decodeFeed at h
  split at h
  · cases h; rfl
  · cases h

theorem encode_of_decodePlain {j : Instr} (hj : encode m j = [selector]) (h : decodePlain j ops = .ok i) :
    encode m i = selector :: ops := by
  unfold decodePlain at h
  split at h
  · cases h; exact hj
  · cases h

theorem encode_of_decodeReplyGen (h : decodeReplyGen ops = .ok i) : encode m i = 0x04 :: ops := by
  unfold decodeReplyGen at h
  split at h
  · split at h
    · rename_i ha hn
      cases h
      simp [encode, bitOperand_cases ha, nanosOperand_cases hn]
    · cases h
  · cases h

theorem encode_of_decodeBuildNew (h : decodeBuildNew ops = .ok i) : encode m i = 0x06 :: ops := by
  unfold decodeBuildNew at h
  split at h
  · split at h
    · rename_i hs hd
      cases h
      simp [encode, nibbleOperand_cases hs, nibbleOperand_cases hd]
    · cases h
  · cases h

theorem encode_of_decodeBuildWriteExt (h : decodeBuildWriteExt ops = .ok i) : encode m i = 0x09 :: ops := by
  unfold decodeBuildWriteExt at h
  split at h
  · split at h
    · rename_i hlast
      cases h
      simp [encode, List.dropLast_append_getLast? _ hlast]
    · cases h
  · cases h

theorem encode_of_decodeBuildEraseSectorExt (h : decodeBuildEraseSectorExt ops = .ok i) :
    encode m i = 0x0A :: ops := by
  unfold decodeBuildEraseSectorExt at h
  split at h
  · cases h; simp [encode]
  · cases h

theorem encode_of_decodeBuildReadExt (h : decodeBuildReadExt ops = .ok i) : encode m i = 0x0B :: ops := by
  unfold decodeBuildReadExt at h
  split at h
  · cases h; simp [encode]
  · cases h

theorem encode_of_decodeBuildWritePage (h : decodeBuildWritePage ops = .ok i) : encode m i = 0x0C :: ops := by
  unfold decodeBuildWritePage at h
  split at h
  · cases h; rfl
  · cases h

theorem encode_of_decodeBuildWritePageAddr32 (h : decodeBuildWritePageAddr32 ops = .ok i) :
    encode m i = 0x0D :: ops := by
  unfold decodeBuildWritePageAddr32 at h
  split at h
  · cases h; simp [encode]
  · cases h

theorem encode_of_decodeBuildPower (h : decodeBuildPower ops = .ok i) : encode m i = 0x0E :: ops := by
  unfold decodeBuildPower at h
  split at h
  · cases h; rfl
  · cases h

theorem encode_of_decodeBuildSetTime (h : decodeBuildSetTime ops = .ok i) : encode m i = 0x0F :: ops := by
  unfold decodeBuildSetTime at h
  split at h
  · cases h; simp [encode]
  · cases h

theorem encode_of_decodeDescribe (h : decodeDescribe ops = .ok i) : encode m i = 0x12 :: ops := by
  unfold decodeDescribe at h
  split at h
  · cases h; simp [encode]
  · cases h

/-- The accepted selector is the one `encode` writes for its decoder's instructions (30_encoding.md R90). -/
theorem encode_of_decodeOp (h : decodeOp bs = .ok i) : encode m i = bs := by
  unfold decodeOp at h
  split at h
  case h_1 => cases h
  case h_2 selector ops =>
    split at h <;> rename_i hsel
    case h_19 => cases h
    all_goals obtain rfl := (BitVec.toNat_eq_nat.mp hsel).2
    case h_1 => exact encode_of_decodeFeed h
    case h_4 => exact encode_of_decodeReplyGen h
    case h_6 => exact encode_of_decodeBuildNew h
    case h_7 | h_8 => cases h; rfl
    case h_9 => exact encode_of_decodeBuildWriteExt h
    case h_10 => exact encode_of_decodeBuildEraseSectorExt h
    case h_11 => exact encode_of_decodeBuildReadExt h
    case h_12 => exact encode_of_decodeBuildWritePage h
    case h_13 => exact encode_of_decodeBuildWritePageAddr32 h
    case h_14 => exact encode_of_decodeBuildPower h
    case h_15 => exact encode_of_decodeBuildSetTime h
    case h_18 => exact encode_of_decodeDescribe h
    case h_2 | h_3 | h_5 | h_16 | h_17 => exact encode_of_decodePlain rfl h

/-- Settles O6: what decodes is what is written, and it carries no frame. -/
theorem operationsEncodeAfterDecode : Obligations.OperationsEncodeAfterDecode := by
  unfold Obligations.OperationsEncodeAfterDecode
  exact fun m bs i h => ⟨encode_of_decodeOp h, Machine.frame?_of_decodeOp h⟩

/-! ## Fixed bytes and reserved selectors -/

/-- Settles O1, by running the decoder on the bytes. -/
theorem writtenOperationBytesDecode : Obligations.WrittenOperationBytesDecode := by
  unfold Obligations.WrittenOperationBytesDecode
  exact ⟨rfl, rfl, rfl, rfl, rfl, rfl, rfl, rfl⟩

/-- R91's selectors, and every byte above the five selector bits, select no operation. -/
theorem decodeOp_reserved (h : selector.toNat = 0 ∨ 0x13 ≤ selector.toNat) :
    decodeOp (selector :: ops) = .error (.reservedSelector selector) := by
  simp only [decodeOp]
  split
  case h_19 => rfl
  all_goals omega

/-- Settles O9: the decoder names the selector, and the step refuses with what the decoder says. -/
theorem reservedSelectorsHaveNoStep : Obligations.ReservedSelectorsHaveNoStep := by
  unfold Obligations.ReservedSelectorsHaveNoStep
  intro s selector ops rest hp hsel
  exact Machine.step_of_error hp (decodeOp_reserved (hsel.imp_right And.left))

end Sys2Proof
end

section
/-! PROOFS. The encoding of TAB frames (30_encoding.md R70 to R74, R80, R81): the decoder accepts the
legal frames of assigned opcodes and nothing else. -/

namespace Sys2Proof

variable {m : OpcodeMap} {a : Bool} {c : Clock} {d : TimeDraw} {bs : List Byte} {i : Instr}

/-- Settles O5: the instruction is its opcode's, and a legal frame's bytes decode to that. -/
theorem framesDecodeAfterEncode : Obligations.FramesDecodeAfterEncode := by
  unfold Obligations.FramesDecodeAfterEncode
  intro m i n f hm hi hw
  obtain ⟨a, c, d, rfl⟩ := Machine.eq_ofFrame_of_frame? hi
  have hf : f.wf := by simpa [Instr.wf, hi] using hw
  refine ⟨a, c, d, rfl, ?_⟩
  rw [encode_ofFrame]
  exact decodeFrame_encodeFrame hm hf n a c d

/-- Everything the frame decoder accepts: a legal frame of an assigned opcode. -/
theorem decodeFrame_cases (h : decodeFrame m a c d bs = .ok i) :
    ∃ n f, f.wf ∧ bs = encodeFrame (m.valueOf n) f ∧ i = Instr.ofFrame n f a c d := by
  unfold decodeFrame at h
  split at h
  · split_ifs at h with hmark hlen hcount
    split at h
    · cases h
    · rename_i hn
      obtain ⟨rfl, rfl⟩ : _ = MARKER0 ∧ _ = MARKER1 := by simpa using hmark
      obtain rfl := Except.ok.inj h
      refine ⟨_, _, ⟨not_lt.mp hlen, not_not.mp hcount⟩, ?_, rfl⟩
      simp [encodeFrame, OpcodeMap.valueOf_of_nameOf hn]
  · cases h

/-- A frame whose length byte counts its payload is written as L + 3 bytes (30_encoding.md R72). -/
theorem legalFrame_encodeFrame {f : Frame} (h : f.wf) (opcode : Byte) :
    Machine.LegalFrame (encodeFrame opcode f) := by
  obtain ⟨h6, hp⟩ := h
  refine ⟨rfl, rfl, h6, ?_⟩
  simp only [encodeFrame, List.length_cons, List.getD_cons_succ, List.getD_cons_zero, Machine.frameEnd,
    HDR_AFTER_LEN, LEN_MIN] at hp h6 ⊢
  omega

/-- Settles O7, by what the frame decoder accepts. -/
theorem framesEncodeAfterDecode : Obligations.FramesEncodeAfterDecode := by
  unfold Obligations.FramesEncodeAfterDecode
  intro m a c d bs i h
  obtain ⟨n, f, hf, rfl, rfl⟩ := decodeFrame_cases h
  exact ⟨encode_ofFrame .., legalFrame_encodeFrame hf _, by simpa [Instr.wf, Machine.frame?_ofFrame] using hf⟩

/-- Settles O2, by running the decoder: NACK's value alone is fixed, and it is sought first. -/
theorem writtenFrameBytesDecode : Obligations.WrittenFrameBytesDecode := by
  unfold Obligations.WrittenFrameBytesDecode
  exact ⟨fun m a c d => rfl, fun a c d => rfl⟩

/-- R81, read as injectivity of the twenty values. -/
theorem OpcodeMap.wf_iff_injective : m.wf ↔ ∀ n k, m.valueOf n = m.valueOf k → n = k :=
  ⟨fun h _ _ => OpcodeMap.valueOf_inj h, fun h => List.Nodup.map h (by decide)⟩

/-- Settles O3: the build's assignment obeys R81, and NACK has no field to set. -/
theorem opcodeValuesAreDistinct : Obligations.OpcodeValuesAreDistinct := by
  unfold Obligations.OpcodeValuesAreDistinct
  exact ⟨Config.opcodes_wf, fun m => rfl, fun m => OpcodeMap.wf_iff_injective⟩

end Sys2Proof
end

section
/-! PROOFS. FEED in each parser state, RX_CLEAR and RX_QUERY (40_receive_parser.md R102 to R114). -/

namespace Sys2Proof.Machine

variable {b : Byte} {s : State}

/-! ## The two arms of each check -/

theorem feedMarker0_of_eq (h : b = MARKER0) : feedMarker0 b s = storeRx s 0 b .awaitMarker1 := if_pos h

theorem feedMarker0_of_ne (h : b ≠ MARKER0) : feedMarker0 b s = s := if_neg h

theorem feedMarker1_of_eq (h : b = MARKER1) : feedMarker1 b s = storeRx s 1 b .awaitLength := if_pos h

theorem feedMarker1_of_ne (h : b ≠ MARKER1) : feedMarker1 b s = clearParser s := if_neg h

theorem feedLength_of_le (h : LEN_MIN ≤ b.toNat) : feedLength b s = { storeRx s 2 b .awaitHwIdLow with
    rxCursor := BitVec.ofNat 9 PAYLOAD_OFF, rxEnd := BitVec.ofNat 9 (frameEnd b) } := if_pos h

theorem feedLength_of_lt (h : b.toNat < LEN_MIN) : feedLength b s = clearParser s :=
  if_neg (Nat.not_le.mpr h)

theorem feedOpcode_of_lt (h : s.rxCursor.toNat < s.rxEnd.toNat) :
    feedOpcode b s = storeRx s 8 b .awaitPayload := by
  rw [feedOpcode, if_pos (BitVec.lt_def.mpr h)]

theorem feedOpcode_of_le (h : s.rxEnd.toNat ≤ s.rxCursor.toNat) :
    feedOpcode b s = storeRx s 8 b .complete := by
  rw [feedOpcode, if_neg (BitVec.not_lt.mpr (BitVec.le_def.mpr h))]

/-- The frame end L + 3 of every length byte fits the 9-bit register `rx_end` (10_state.md R26). -/
theorem toNat_ofNat_frameEnd (b : Byte) : (BitVec.ofNat 9 (frameEnd b)).toNat = frameEnd b := by
  rw [BitVec.toNat_ofNat, frameEnd, Nat.mod_eq_of_lt]
  omega

/-- A cursor inside the buffer does not wrap in its 9 bits. -/
theorem rxCursor_succ_toNat (h : s.rxCursor.toNat < FRAME_CAP) :
    (s.rxCursor + 1).toNat = s.rxCursor.toNat + 1 := by
  rw [BitVec.toNat_add]
  exact Nat.mod_eq_of_lt (Nat.lt_of_lt_of_le (Nat.succ_lt_succ h) (by decide))

theorem exec_rxClear (s : State) : exec .rxClear s = .next (clearParser s) := rfl

theorem exec_rxQuery (s : State) : exec .rxQuery s = .next { s with output := .rxComplete (rxComplete s) } := rfl

/-! ## The claims -/

/-- Settles O13, by whether the byte is the first marker. -/
theorem feedInAwaitMarker0 : Obligations.FeedInAwaitMarker0 := by
  unfold Obligations.FeedInAwaitMarker0
  intro b s hq
  rw [exec_feed_marker0 hq]
  refine ⟨fun hb => ⟨_, rfl, ?_⟩, fun hb => ?_⟩
  · rw [feedMarker0_of_eq hb]
    exact byteStored_storeRx 0 _
  · rw [feedMarker0_of_ne hb]

/-- Settles O14, by whether the byte is the second marker. -/
theorem feedInAwaitMarker1 : Obligations.FeedInAwaitMarker1 := by
  unfold Obligations.FeedInAwaitMarker1
  intro b s hq
  refine ⟨_, exec_feed_marker1 hq, fun hb => ?_, fun hb => ?_⟩
  · rw [feedMarker1_of_eq hb]
    exact byteStored_storeRx 1 _
  · rw [feedMarker1_of_ne hb]
    exact parserCleared_clearParser s

/-- Settles O15, by whether the length byte is at least 6. -/
theorem feedInAwaitLength : Obligations.FeedInAwaitLength := by
  unfold Obligations.FeedInAwaitLength
  intro b s hq
  refine ⟨_, exec_feed_length hq, fun hb => ?_, fun hb => ?_⟩
  · have honly := onlyRx_of_feed (exec_feed_length (b := b) hq)
    obtain ⟨-, hread, hsame, -⟩ := byteStored_storeRx (b := b) (s := s) 2 .awaitHwIdLow
    rw [feedLength_of_le hb] at honly ⊢
    exact ⟨rfl, hread, hsame, rfl, toNat_ofNat_frameEnd b, honly⟩
  · rw [feedLength_of_lt hb]
    exact parserCleared_clearParser s

/-- Settles O16: each of the five states stores its byte and goes on. -/
theorem feedStoresTheHeaderBytes : Obligations.FeedStoresTheHeaderBytes := by
  unfold Obligations.FeedStoresTheHeaderBytes
  intro b s
  have stores {q q' : RxState} {k : Nat} (hk : (q, k, q') ∈ headerStates) (hq : s.rxState = q) :
      ∃ t, exec (.feed b) s = .next t ∧ ByteStored k b q' s t :=
    ⟨_, exec_feed_header hq hk, byteStored_storeRx k q'⟩
  exact ⟨stores (by decide), stores (by decide), stores (by decide), stores (by decide), stores (by decide)⟩

/-- Settles O17, by whether the frame has a payload. -/
theorem feedInAwaitOpcode : Obligations.FeedInAwaitOpcode := by
  unfold Obligations.FeedInAwaitOpcode
  intro b s hq
  refine ⟨_, exec_feed_opcode hq, fun hlt => ?_, fun hle => ?_⟩
  · rw [feedOpcode_of_lt hlt]
    exact byteStored_storeRx 8 _
  · rw [feedOpcode_of_le hle]
    exact ⟨byteStored_storeRx 8 _, rfl⟩

/-- Settles O18: the 9-bit comparison with `rx_end` is one of numbers, since the cursor does not wrap. -/
theorem feedInAwaitPayload : Obligations.FeedInAwaitPayload := by
  unfold Obligations.FeedInAwaitPayload
  intro b s hq hc
  have hx := exec_feed_payload (b := b) hq hc
  have hsucc := rxCursor_succ_toNat hc
  refine ⟨_, hx, Memory.read_write_self _ _ _, fun a ha => Memory.read_write_of_ne ha, hsucc, rfl,
    fun hend => if_pos ?_, fun hend => if_neg ?_, onlyRx_of_feed hx⟩
  · exact BitVec.eq_of_toNat_eq (hsucc.trans hend)
  · exact fun heq => hend (hsucc.symm.trans (congrArg BitVec.toNat heq))

/-- Settles O19. -/
theorem feedInCompleteIsIgnored : Obligations.FeedInCompleteIsIgnored := by
  unfold Obligations.FeedInCompleteIsIgnored
  exact fun b s hq => exec_feed_complete hq

/-- Settles O20. -/
theorem rxClearClearsTheParser : Obligations.RxClearClearsTheParser := by
  unfold Obligations.RxClearClearsTheParser
  exact fun s => ⟨_, exec_rxClear s, parserCleared_clearParser s, rfl⟩

/-- Settles O21, by what `rx_complete` says of the state. -/
theorem rxQueryReturnsCompletion : Obligations.RxQueryReturnsCompletion := by
  unfold Obligations.RxQueryReturnsCompletion
  intro s
  refine ⟨_, exec_rxQuery s, ?_, fun hq => ?_, fun hq => ?_⟩
  · exact ⟨⟨rfl, rfl, rfl, rfl⟩, ⟨rfl, rfl, rfl⟩, ⟨rfl, rfl⟩, ⟨rfl, rfl, rfl, rfl⟩, rfl, rfl⟩
  · simp [rxComplete, hq]
  · simp [rxComplete, hq]

end Sys2Proof.Machine
end

section
/-! PROOFS. Sequences of bytes fed to the parser (40_receive_parser.md R101, R116, R117): what the parser
holds after the first `k` bytes of a legal frame, and the bytes it drops before one. -/

namespace Sys2Proof.Machine

variable {b : Byte} {bs frame : List Byte} {k n : Nat} {s t : State}

/-! ## A legal frame, byte by byte -/

/-- The parser's state after the first `k` bytes of a legal frame of `n` bytes (10_state.md R23). -/
def stateAfter (n : Nat) : Nat → RxState
  | 0 => .awaitMarker0
  | 1 => .awaitMarker1
  | 2 => .awaitLength
  | 3 => .awaitHwIdLow
  | 4 => .awaitHwIdHigh
  | 5 => .awaitMsgIdLow
  | 6 => .awaitMsgIdHigh
  | 7 => .awaitRoute
  | 8 => .awaitOpcode
  | k => if k = n then .complete else .awaitPayload

theorem stateAfter_header (h3 : 3 ≤ k) (h8 : k < 8) : (stateAfter n k, k, stateAfter n (k + 1)) ∈ headerStates := by
  interval_cases k <;> simp [stateAfter]

theorem stateAfter_of_ge (h9 : 9 ≤ k) : stateAfter n k = if k = n then .complete else .awaitPayload := by
  obtain ⟨j, rfl⟩ := Nat.exists_eq_add_of_le' h9
  rfl

/-- No frame of at least 9 bytes is complete before its last byte. -/
theorem stateAfter_ne_complete (h : k < n) : stateAfter n k ≠ .complete := by
  rcases Nat.lt_or_ge k 9 with h9 | h9
  · interval_cases k <;> simp [stateAfter]
  · simp [stateAfter_of_ge h9, h.ne]

/-- The parser has received the first `k` bytes of `frame`. The cursors count from the length byte on:
before it an idle parser's may hold anything. -/
structure Received (frame : List Byte) (k : Nat) (s : State) : Prop where
  state : s.rxState = stateAfter frame.length k
  bytes : ∀ a, s.rxBuf.read a = if a < k then frame.getD a 0 else 0
  cursors : 3 ≤ k → s.rxCursor.toNat = max 9 k ∧ s.rxEnd.toNat = frame.length

theorem ParserIdle.received (h : ParserIdle s) (frame : List Byte) : Received frame 0 s := by
  obtain ⟨hq, hb⟩ := h
  exact ⟨hq, hb, by omega⟩

/-- The next byte of the frame, stored behind the bytes received. -/
theorem Received.store (h : Received frame k s) (hq : t.rxState = stateAfter frame.length (k + 1))
    (hb : t.rxBuf = s.rxBuf.write k (frame.getD k 0))
    (hc : 3 ≤ k + 1 → t.rxCursor.toNat = max 9 (k + 1) ∧ t.rxEnd.toNat = frame.length) :
    Received frame (k + 1) t := by
  refine ⟨hq, fun a => ?_, hc⟩
  rw [hb, Memory.read_write, h.bytes]
  rcases Nat.lt_trichotomy a k with hlt | rfl | hgt
  · rw [if_neg hlt.ne, if_pos hlt, if_pos (by omega)]
  · rw [if_pos rfl, if_pos (Nat.lt_succ_self a)]
  · rw [if_neg hgt.ne', if_neg (by omega), if_neg (by omega)]

theorem LegalFrame.nine_le_length (hf : LegalFrame frame) : 9 ≤ frame.length := by
  obtain ⟨-, -, h6, hlen⟩ := hf
  rw [hlen, frameEnd]
  exact Nat.add_le_add_right h6 3

theorem LegalFrame.length_le (hf : LegalFrame frame) : frame.length ≤ FRAME_CAP := by
  obtain ⟨-, -, -, hlen⟩ := hf
  rw [hlen, frameEnd]
  exact Nat.add_le_add_right (Nat.le_of_lt_succ (frame.getD 2 0).isLt) 3

/-- FEED of the length byte sets both cursors (R104). -/
theorem Received.feedLength (hf : LegalFrame frame) (h : Received frame 2 s) :
    Received frame 3 (feedLength (frame.getD 2 0) s) := by
  obtain ⟨-, -, h6, hlen⟩ := hf
  rw [feedLength_of_le h6]
  exact h.store rfl rfl fun _ => ⟨rfl, (toNat_ofNat_frameEnd _).trans hlen.symm⟩

/-- FEED of the opcode completes the frame exactly when it has no payload (R110). -/
theorem Received.feedOpcode (hf : LegalFrame frame) (h : Received frame 8 s) :
    Received frame 9 (feedOpcode (frame.getD 8 0) s) := by
  obtain ⟨hcur, hend⟩ := h.cursors (by decide)
  have hcur : s.rxCursor.toNat = 9 := hcur
  rcases hf.nine_le_length.lt_or_eq with hlt | heq
  · rw [feedOpcode_of_lt (by omega)]
    exact h.store (if_neg hlt.ne).symm rfl fun _ => ⟨hcur, hend⟩
  · rw [feedOpcode_of_le (by omega)]
    exact h.store (if_pos heq).symm rfl fun _ => ⟨hcur, hend⟩

/-- FEED of a payload byte completes the frame exactly at its last byte (R111). -/
theorem Received.feedPayload (hf : LegalFrame frame) (h : Received frame k s) (h9 : 9 ≤ k)
    (hk : k < frame.length) : ∃ t, exec (.feed (frame.getD k 0)) s = .next t ∧ Received frame (k + 1) t := by
  have hq : s.rxState = .awaitPayload := by rw [h.state, stateAfter_of_ge h9, if_neg hk.ne]
  obtain ⟨hcur, hend⟩ := h.cursors (by omega)
  rw [max_eq_right h9] at hcur
  have hcap : s.rxCursor.toNat < FRAME_CAP := hcur ▸ hk.trans_le hf.length_le
  have hsucc := rxCursor_succ_toNat hcap
  have hlast : s.rxCursor + 1 = s.rxEnd ↔ k + 1 = frame.length := by
    rw [← BitVec.toNat_inj, hsucc, hcur, hend]
  refine ⟨_, exec_feed_payload hq hcap, h.store ?_ ?_ fun _ => ⟨?_, hend⟩⟩
  · simp only [stateAfter_of_ge (Nat.le_succ_of_le h9), hlast]
  · simp only [hcur]
  · rw [max_eq_right (Nat.le_succ_of_le h9), ← hcur]
    exact hsucc

/-- FEED of the next byte of a legal frame, in each parser state (R102 to R111). -/
theorem Received.feed (hf : LegalFrame frame) (h : Received frame k s) (hk : k < frame.length) :
    ∃ t, exec (.feed (frame.getD k 0)) s = .next t ∧ Received frame (k + 1) t := by
  have hpos : k = 0 ∨ k = 1 ∨ k = 2 ∨ (3 ≤ k ∧ k < 8) ∨ k = 8 ∨ 9 ≤ k := by omega
  rcases hpos with rfl | rfl | rfl | ⟨h3, h8⟩ | rfl | h9
  · refine ⟨_, exec_feed_marker0 h.state, ?_⟩
    rw [feedMarker0_of_eq hf.1]
    exact h.store rfl rfl (by omega)
  · refine ⟨_, exec_feed_marker1 h.state, ?_⟩
    rw [feedMarker1_of_eq hf.2.1]
    exact h.store rfl rfl (by omega)
  · exact ⟨_, exec_feed_length h.state, h.feedLength hf⟩
  · obtain ⟨hcur, hend⟩ := h.cursors h3
    refine ⟨_, exec_feed_header h.state (stateAfter_header h3 h8), h.store rfl rfl fun _ => ⟨?_, hend⟩⟩
    rw [storeRx_rxCursor, hcur]
    omega
  · exact ⟨_, exec_feed_opcode h.state, h.feedOpcode hf⟩
  · exact h.feedPayload hf h9 hk

/-- Feeding the first `k` bytes of a legal frame to an idle parser, by induction on `k`. -/
theorem received_of_feedAll_take (hf : LegalFrame frame) (hs : ParserIdle s) (hk : k ≤ frame.length) :
    ∃ t, feedAll (frame.take k) s = .next t ∧ Received frame k t := by
  induction k with
  | zero => exact ⟨s, rfl, hs.received frame⟩
  | succ k ih =>
    obtain ⟨t, ht, hr⟩ := ih (Nat.le_of_succ_le hk)
    obtain ⟨u, hu, hr'⟩ := hr.feed hf hk
    refine ⟨u, ?_, hr'⟩
    rw [List.getD_eq_getElem _ _ hk] at hu
    rw [← List.take_concat_get' _ _ hk, feedAll_append_of_next ht, feedAll_cons_of_next hu, feedAll_nil]

/-- With all of its bytes received the parser holds exactly the frame. -/
theorem Received.parserHolds (hf : LegalFrame frame) (h : Received frame frame.length s) : ParserHolds frame s := by
  refine ⟨?_, readBytes_eq_iff.mpr fun j hj => ?_, fun a ha => ?_⟩
  · rw [h.state, stateAfter_of_ge hf.nine_le_length, if_pos rfl]
  · rw [Nat.zero_add, h.bytes, if_pos hj]
  · rw [h.bytes, if_neg ha.not_gt]

/-- Feeding bytes touches no other unit (40_receive_parser.md R118). -/
theorem onlyRx_of_feedAll (h : feedAll bs s = .next t) : OnlyRx s t := by
  induction bs generalizing s with
  | nil =>
    obtain rfl := Host.Outcome.next.inj h
    exact OnlyRx.refl s
  | cons b bs ih =>
    cases hx : exec (.feed b) s with
    | next u => exact (onlyRx_of_feed hx).trans (ih (feedAll_cons_of_next hx ▸ h))
    | fault r => simp [feedAll, execAll, hx] at h
    | refused r => simp [feedAll, execAll, hx] at h

/-- Settles O23, by what the parser holds after the first `k` bytes of the frame. -/
theorem legalFrameReachesComplete : Obligations.LegalFrameReachesComplete := by
  unfold Obligations.LegalFrameReachesComplete
  intro frame s hf hs
  constructor
  · obtain ⟨t, ht, hr⟩ := received_of_feedAll_take hf hs le_rfl
    rw [List.take_length] at ht
    exact ⟨t, ht, hr.parserHolds hf, onlyRx_of_feedAll ht⟩
  · intro k hk
    obtain ⟨t, ht, hr⟩ := received_of_feedAll_take hf hs hk.le
    exact ⟨t, ht, hr.state ▸ stateAfter_ne_complete hk⟩

/-! ## Bytes before a frame -/

/-- Every byte but 0x22 is dropped before a frame begins (R102). -/
theorem feedAll_noise (hq : s.rxState = .awaitMarker0) (h : ∀ b ∈ bs, b ≠ MARKER0) : feedAll bs s = .next s := by
  induction bs with
  | nil => rfl
  | cons b bs ih =>
    obtain ⟨hb, hbs⟩ := List.forall_mem_cons.mp h
    have hx : exec (.feed b) s = .next s := by rw [exec_feed_marker0 hq, feedMarker0_of_ne hb]
    rw [feedAll_cons_of_next hx, ih hbs]

/-- A second 0x22 is consumed by the hard reset and begins no frame (R101, R103). -/
theorem feedAll_two_markers (hq : s.rxState = .awaitMarker0) (bs : List Byte) :
    feedAll (MARKER0 :: MARKER0 :: bs) s = feedAll bs (clearParser (storeRx s 0 MARKER0 .awaitMarker1)) := by
  rw [feedAll_cons_of_next (exec_feed_marker0 hq), feedMarker0_of_eq rfl,
    feedAll_cons_of_next (exec_feed_marker1 rfl), feedMarker1_of_ne (by decide)]

/-- Settles O25: the frame's first byte is lost to the hard reset, and the rest is noise. -/
theorem markerByteBeforeAFrameLosesIt : Obligations.MarkerByteBeforeAFrameLosesIt := by
  unfold Obligations.MarkerByteBeforeAFrameLosesIt
  intro frame s hf htail hs
  cases frame with
  | nil => exact absurd hf.nine_le_length (by decide)
  | cons b rest =>
    obtain rfl : b = MARKER0 := hf.1
    exact ⟨_, (feedAll_two_markers hs.1 rest).trans (feedAll_noise rfl htail), rfl, fun _ => rfl⟩

/-- Settles O24: noise is dropped, and after a 0x22 the shortest frame of zero bytes is lost (O25) where
alone it completes (O23). -/
theorem noiseWithoutMarkerIsSkipped : Obligations.NoiseWithoutMarkerIsSkipped := by
  unfold Obligations.NoiseWithoutMarkerIsSkipped
  constructor
  · intro noise frame s hnoise hf hs
    obtain ⟨⟨t, ht, -⟩, -⟩ := legalFrameReachesComplete frame s hf hs
    exact ⟨t, (feedAll_append_of_next (feedAll_noise hs.1 hnoise)).trans ht, ht⟩
  · intro s hs
    have hf : LegalFrame [0x22, 0x69, 6, 0, 0, 0, 0, 0, 0] := by decide
    refine ⟨_, hf, fun hsame => ?_⟩
    obtain ⟨⟨t, ht, ⟨hcomplete, -⟩, -⟩, -⟩ := legalFrameReachesComplete _ s hf hs
    obtain ⟨u, hu, hidle, -⟩ := markerByteBeforeAFrameLosesIt _ s hf (by decide) hs
    obtain rfl : u = t := Host.Outcome.next.inj (hu.symm.trans (hsame.trans ht))
    exact RxState.noConfusion (hidle.symm.trans hcomplete)

end Sys2Proof.Machine
end

section
/-! PROOFS. REPLY_GEN and REPLY_TAKE, whatever the opcode (41_reply_generator.md R130 to R133, R155, R156,
R160): the checks, the header every reply carries, and what the transport sends of it. -/

namespace Sys2Proof.Machine

variable {n : OpName} {f : Frame} {a : Bool} {c : Clock} {d : TimeDraw} {s t : State}

/-! ## The checks -/

theorem exec_replyGen_of_not_ready (h : s.rxState ≠ .complete ∨ s.txPending = true) :
    exec (.replyGen a c d) s = .next { s with rpgStatus := .notReady } := by
  show execReplyGen a c d s = _
  rw [execReplyGen, if_pos (notReady_eq_true.mpr h)]
  rfl

theorem exec_replyGen_of_unassigned (h : ReadyToReply s) (hn : ∀ n, s.opcodes.valueOf n ≠ s.rxBuf.read 8) :
    exec (.replyGen a c d) s = .next { s with rpgStatus := .unsupportedOpcode } := by
  show execReplyGen a c d s = _
  simp [execReplyGen, notReady_eq_false.mpr h, OpcodeMap.nameOf_eq_none.mpr hn, raiseRpg]

/-- Settles O26, by whether a complete frame waits and no reply is pending. -/
theorem replyGenRunsTheInboundFrame : Obligations.ReplyGenRunsTheInboundFrame := by
  unfold Obligations.ReplyGenRunsTheInboundFrame
  intro s n f a c d
  refine ⟨fun h => ⟨exec_replyGen_of_not_ready h, ?_⟩, fun _ hin => exec_replyGen_of_inbound hin a c d⟩
  rw [exec_ofFrame, answerFrame_of_not_ready _ h]

/-- Settles O27: the byte in `rx_buf[8]` has no name. -/
theorem unassignedOpcodeGetsNoReply : Obligations.UnassignedOpcodeGetsNoReply := by
  unfold Obligations.UnassignedOpcodeGetsNoReply
  exact fun s a c d hr hn => exec_replyGen_of_unassigned hr hn

theorem exec_replyTake_of_pending (h : s.txPending = true) :
    exec .replyTake s = .next { s with txPending := false, rpgStatus := .ok } := if_pos h

theorem exec_replyTake_of_not_pending (h : s.txPending = false) :
    exec .replyTake s = .next { s with rpgStatus := .notReady } := if_neg (by simp [h])

/-- Settles O37, by whether a reply is pending. -/
theorem replyTakeClearsThePendingReply : Obligations.ReplyTakeClearsThePendingReply := by
  unfold Obligations.ReplyTakeClearsThePendingReply
  intro s
  exact ⟨fun h => ⟨_, exec_replyTake_of_pending h, rfl, rfl, rfl, onlyRpg_update s s.txBuf false .ok⟩,
    exec_replyTake_of_not_pending⟩

/-! ## The route swap -/

theorem toNat_swapRoute (r : Byte) : (swapRoute r).toNat = r.toNat % 16 * 16 + r.toNat / 16 := by
  rw [swapRoute, BitVec.toNat_ofNat]
  omega

theorem swapRoute_swapRoute (r : Byte) : swapRoute (swapRoute r) = r := by
  rw [swapRoute_eq_packRoute (swapRoute r), swapRoute_eq_packRoute r, routeSrc_packRoute, routeDst_packRoute,
    packRoute_routeSrc_routeDst]

/-- Settles O38: the swap packs the two node ids the other way round. -/
theorem routeSwapIsAnInvolution : Obligations.RouteSwapIsAnInvolution := by
  unfold Obligations.RouteSwapIsAnInvolution
  intro r
  refine ⟨toNat_swapRoute r, swapRoute_swapRoute r, ?_, ?_⟩
  · rw [swapRoute_eq_packRoute, routeSrc_packRoute]
  · rw [swapRoute_eq_packRoute, routeDst_packRoute]

/-! ## The header of a reply -/

/-- The state in which an opcode's arm has answered its frame: zero fill, the arm's writes, Finish
(41_reply_generator.md R130, R132). -/
abbrev replied (n : OpName) (f : Frame) (a : Bool) (c : Clock) (d : TimeDraw) (s : State) : State :=
  finishReply (armReply n f a c d { s with txBuf := Memory.zero })

theorem exec_ofFrame_of_ready (hr : ReadyToReply s) (n : OpName) (f : Frame) (a : Bool) (c : Clock)
    (d : TimeDraw) : exec (Instr.ofFrame n f a c d) s = .next (replied n f a c d s) := by
  rw [exec_ofFrame, answerFrame_of_ready _ hr]

/-- An accepted REPLY_GEN on an assigned opcode writes some arm's reply to the frame in `rx_buf`. -/
theorem replied_of_exec_replyGen (hr : ReadyToReply s) (hn : ∃ n, s.opcodes.valueOf n = s.rxBuf.read 8)
    (h : exec (.replyGen a c d) s = .next t) : ∃ n, t = replied n (frameAt s.rxBuf.read) a c d s := by
  cases hk : s.opcodes.nameOf (s.rxBuf.read 8) with
  | none =>
    obtain ⟨n, hn⟩ := hn
    exact absurd hn (OpcodeMap.nameOf_eq_none.mp hk n)
  | some n => exact ⟨n, Host.Outcome.next.inj (h.symm.trans (exec_replyGen_of_ready hr hk a c d))⟩

/-- The pending reply REPLY_GEN leaves is a legal frame (R160(a)), by the block's invariant. -/
theorem holdsLegalFrame_of_exec_replyGen (hs : Inv s) (hr : ReadyToReply s)
    (hn : ∃ n, s.opcodes.valueOf n = s.rxBuf.read 8) (h : exec (.replyGen a c d) s = .next t) :
    HoldsLegalFrame t.txBuf := by
  obtain ⟨n, rfl⟩ := replied_of_exec_replyGen hr hn h
  exact (hs.exec rfl h).reply rfl

/-- The opcodes a reply can have (R160(c)). -/
abbrev replyOpcodes : List OpName := [.ack, .nack, .debug, .telem, .setTime]

/-- Every arm writes R131's header with one of the five opcodes, and a payload behind it. -/
theorem armReply_txBuf_opcode : ∃ k ∈ replyOpcodes, ∃ l p,
    (armReply n f a c d s).txBuf = (replyHeader f l (s.opcodes.valueOf k) s.txBuf).writeBytes PAYLOAD_OFF p := by
  cases n
  case ack => exact ⟨.ack, by decide, 6, [], rfl⟩
  case debug => exact ⟨.debug, by decide, f.length, _, rfl⟩
  case data => exact ⟨if a then .ack else .nack, by cases a <;> decide, 6, [], rfl⟩
  case power => exact ⟨.nack, by decide, 0x07, [0x01], rfl⟩
  case getTelem => exact ⟨.telem, by decide, 0x54, [], rfl⟩
  case getTime =>
    obtain ⟨p, hp, -⟩ := timePayload_eq_writeBytes c d (replyHeader f 0x0e (s.opcodes.valueOf .setTime) s.txBuf)
    exact ⟨.setTime, by decide, 0x0e, p, hp⟩
  all_goals exact ⟨.nack, by decide, 6, [], rfl⟩

/-- Behind the length byte every reply carries the frame's ids, its swapped route and one of the five opcodes. -/
theorem read_replied_header : ∃ k ∈ replyOpcodes, ∀ j, 3 ≤ j → j < 9 →
    (replied n f a c d s).txBuf.read j = [byteOf f.hwId 0, byteOf f.hwId 1, byteOf f.msgId 0, byteOf f.msgId 1,
      swapRoute f.route, s.opcodes.valueOf k].getD (j - 3) 0 := by
  obtain ⟨k, hk, l, p, htx⟩ := armReply_txBuf_opcode (n := n) (f := f) (a := a) (c := c) (d := d)
    (s := { s with txBuf := Memory.zero })
  refine ⟨k, hk, fun j h3 h9 => ?_⟩
  rw [finishReply_txBuf, htx, Memory.read_writeBytes_outside (.inl h9), read_replyHeader, if_pos h9]
  interval_cases j <;> rfl

/-- Settles O39: the reply is one arm's answer to the frame in `rx_buf`, and each arm writes R131's header. -/
theorem everyReplyCarriesTheInboundHeader : Obligations.EveryReplyCarriesTheInboundHeader := by
  unfold Obligations.EveryReplyCarriesTheInboundHeader
  intro s t a c d hs hr hn h
  have hlegal := holdsLegalFrame_of_exec_replyGen hs hr hn h
  obtain ⟨n, rfl⟩ := replied_of_exec_replyGen hr hn h
  obtain ⟨k, hk, hread⟩ := read_replied_header (n := n) (f := frameAt s.rxBuf.read) (a := a) (c := c) (d := d) (s := s)
  exact ⟨hlegal, (hread 3 (by decide) (by decide)).trans (byteOf_num16_lo ..),
    (hread 4 (by decide) (by decide)).trans (byteOf_num16_hi ..),
    (hread 5 (by decide) (by decide)).trans (byteOf_num16_lo ..),
    (hread 6 (by decide) (by decide)).trans (byteOf_num16_hi ..), hread 7 (by decide) (by decide),
    k, hk, hread 8 (by decide) (by decide)⟩

/-! ## What the transport sends -/

theorem length_sentBytes (m : Memory) : (sentBytes m).length = frameEnd (m.read 2) := length_readBytes ..

theorem getD_sentBytes {m : Memory} {k : Nat} (hk : k < frameEnd (m.read 2)) :
    (sentBytes m).getD k 0 = m.read k := by
  rw [List.getD_eq_getElem _ _ (by rwa [length_sentBytes])]
  exact (getElem_slice ..).trans (congrArg m.read (Nat.zero_add k))

/-- What the transport sends from a buffer that begins with a legal frame is that frame
(70_reset_and_hazards.md R286). -/
theorem HoldsLegalFrame.legalFrame_sentBytes {m : Memory} (h : HoldsLegalFrame m) : LegalFrame (sentBytes m) := by
  obtain ⟨h0, h1, h2⟩ := h
  have hget (k : Nat) (hk : k < 3) : (sentBytes m).getD k 0 = m.read k :=
    getD_sentBytes (Nat.lt_of_lt_of_le hk (Nat.le_add_left 3 _))
  refine ⟨(hget 0 (by decide)).trans h0, (hget 1 (by decide)).trans h1, ?_, ?_⟩
  · rwa [hget 2 (by decide)]
  · rw [hget 2 (by decide), length_sentBytes]

/-- Settles O40: the reply is a legal frame (R160(a)), so the bytes sent of it are one, and an idle parser
completes on a legal frame (O23). -/
theorem repliesCompleteAnotherParser : Obligations.RepliesCompleteAnotherParser := by
  unfold Obligations.RepliesCompleteAnotherParser
  intro s t u a c d hs hr hn h hu
  have hlegal := (holdsLegalFrame_of_exec_replyGen hs hr hn h).legalFrame_sentBytes
  obtain ⟨⟨v, hv, hholds, -⟩, -⟩ := legalFrameReachesComplete _ u hlegal hu
  exact ⟨v, hv, hholds⟩

end Sys2Proof.Machine
end

section
/-! PROOFS. The reply to each inbound opcode (41_reply_generator.md R134 to R154, R158). -/

namespace Sys2Proof.Machine

variable {n : OpName} {i : Instr} {f : Frame} {l op : Byte} {p : List Byte} {a : Bool} {c : Clock}
  {d : TimeDraw} {s : State}

/-! ## A reply in the terms of the claims -/

/-- The instruction `i` of opcode `n` answers `f` with this reply and touches no other unit, and REPLY_GEN
on that frame gives the same state. -/
abbrev Answers (n : OpName) (i : Instr) (f : Frame) (l op : Byte) (p : List Byte) (s : State) : Prop :=
  ∃ t, exec i s = .next t ∧ ReplyIs f l op p t ∧ OnlyRpg s t ∧
    (InboundIs n f s → ∀ a c d, exec (.replyGen a c d) s = .next t)

theorem onlyRpg_replied (hn : n ≠ .data) : OnlyRpg s (replied n f a c d s) := by
  obtain ⟨hacc, hout⟩ := armReply_sameAcc n f a c d { s with txBuf := Memory.zero } hn
  exact ⟨armReply_sameRx n f a c d { s with txBuf := Memory.zero }, hacc,
    armReply_sameCmb n f a c d { s with txBuf := Memory.zero },
    armReply_sameHost n f a c d { s with txBuf := Memory.zero }, hout⟩

/-- An arm that reads none of REPLY_GEN's inputs answers with the header and the payload it writes. -/
theorem answers_of_armReply (hr : ReadyToReply s) (hn : n ≠ .data) (hi : ∀ a c d, Instr.ofFrame n f a c d = i)
    (htx : ∀ a c d k, (armReply n f a c d { s with txBuf := Memory.zero }).txBuf.read k =
      ((replyHeader f l op Memory.zero).writeBytes 9 p).read k) : Answers n i f l op p s := by
  have hx := exec_ofFrame_of_ready hr n f false zeroClock zeroDraw
  rw [hi] at hx
  refine ⟨_, hx, replyIs_of_txBuf (htx _ _ _) rfl rfl, onlyRpg_replied hn, fun hin a c d => ?_⟩
  rw [exec_replyGen_of_inbound hin, hi, hx]

/-! ## Replies without a payload -/

theorem answers_of_nacked (hr : ReadyToReply s) (hn : n ≠ .data) (hi : ∀ a c d, Instr.ofFrame n f a c d = i)
    (h : ∀ a c d, armReply n f a c d = shortReply f .nack) : Answers n i f 6 0xff [] s :=
  answers_of_armReply hr hn hi fun a c d k => by rw [h]; rfl

/-- Settles O28: both arms are R134's short reply. -/
theorem ackAndNackFramesAreAnswered : Obligations.AckAndNackFramesAreAnswered := by
  unfold Obligations.AckAndNackFramesAreAnswered
  intro f s hr
  exact ⟨answers_of_armReply hr (by decide) (fun _ _ _ => rfl) (fun _ _ _ _ => rfl),
    answers_of_nacked hr (by decide) (fun _ _ _ => rfl) (fun _ _ _ => rfl)⟩

/-- Settles O29: each of the ten arms is the common NACK. -/
theorem flashAndBootloaderFramesAreNacked : Obligations.FlashAndBootloaderFramesAreNacked := by
  unfold Obligations.FlashAndBootloaderFramesAreNacked
  intro f s n i hr h
  simp only [List.mem_cons, Prod.mk.injEq, List.not_mem_nil, or_false] at h
  rcases h with ⟨rfl, rfl⟩ | ⟨rfl, rfl⟩ | ⟨rfl, rfl⟩ | ⟨rfl, rfl⟩ | ⟨rfl, rfl⟩ | ⟨rfl, rfl⟩ | ⟨rfl, rfl⟩ |
    ⟨rfl, rfl⟩ | ⟨rfl, rfl⟩ | ⟨rfl, rfl⟩
  all_goals exact answers_of_nacked hr (by decide) (fun _ _ _ => rfl) (fun _ _ _ => rfl)

/-- Settles O30: each of the three arms is the common NACK. -/
theorem rebootSetTimeAndTelemFramesAreNacked : Obligations.RebootSetTimeAndTelemFramesAreNacked := by
  unfold Obligations.RebootSetTimeAndTelemFramesAreNacked
  intro f s n i hr h
  simp only [List.mem_cons, Prod.mk.injEq, List.not_mem_nil, or_false] at h
  rcases h with ⟨rfl, rfl⟩ | ⟨rfl, rfl⟩ | ⟨rfl, rfl⟩
  all_goals exact answers_of_nacked hr (by decide) (fun _ _ _ => rfl) (fun _ _ _ => rfl)

/-! ## Replies with a payload -/

/-- Settles O34: the reason byte stands right behind the header. -/
theorem powerFrameIsNackedWithAReason : Obligations.PowerFrameIsNackedWithAReason := by
  unfold Obligations.PowerFrameIsNackedWithAReason
  exact fun f s hr => answers_of_armReply hr (by decide) (fun _ _ _ => rfl) (fun _ _ _ _ => rfl)

/-- Zero bytes written where a buffer is zero change nothing. -/
theorem read_writeBytes_replicate_zero {m : Memory} {k : Nat} (h : ∀ b, k ≤ b → m.read b = 0) (j b : Nat) :
    (m.writeBytes k (List.replicate j 0)).read b = m.read b := by
  rw [Memory.read_writeBytes]
  split
  · rename_i hb
    rw [h b hb.1, List.getD_eq_getElem?_getD, List.getElem?_getD_replicate_default_eq]
  · rfl

/-- Settles O35: the 78 bytes behind the header are zero from the zero fill. -/
theorem getTelemFrameGetsAZeroStub : Obligations.GetTelemFrameGetsAZeroStub := by
  unfold Obligations.GetTelemFrameGetsAZeroStub
  intro f s hr
  refine answers_of_armReply hr (by decide) (fun _ _ _ => rfl) (fun _ _ _ k => Eq.symm ?_)
  refine read_writeBytes_replicate_zero (fun b hb => ?_) 78 k
  rw [read_replyHeader, if_neg hb.not_gt, Memory.read_zero]

/-- A legal frame's length byte counts its payload (30_encoding.md R73). -/
theorem Frame.wf.payloadLength_eq (h : f.wf) : payloadLength f.length = f.payload.length := h.2.symm

/-- So the payload bytes counted are all of them. -/
theorem Frame.wf.take_payload (h : f.wf) : f.payload.take (payloadLength f.length) = f.payload :=
  List.take_of_length_le (Frame.wf.payloadLength_eq h).ge

/-- Settles O31: the echo takes all of a legal frame's payload. -/
theorem debugFrameIsEchoed : Obligations.DebugFrameIsEchoed := by
  unfold Obligations.DebugFrameIsEchoed
  intro f s hf hr
  refine answers_of_armReply hr (by decide) (fun _ _ _ => rfl) (fun _ _ _ k => ?_)
  rw [armReply, echoReply_txBuf, Frame.wf.take_payload hf]

/-! ## The accumulator -/

/-- DATA shows the collaborator the payload it has put into the accumulator, and that alone. -/
theorem output_accumulate (hf : f.wf) (s : State) : (accumulate f s).output = .applied f.payload := by
  rw [accumulate_output, Frame.wf.take_payload hf, Frame.wf.payloadLength_eq hf, readBytes_writeBytes_self]

theorem accBuf_accumulate (hf : f.wf) (s : State) : (accumulate f s).accBuf = s.accBuf.writeBytes 0 f.payload := by
  rw [accumulate_accBuf, Frame.wf.take_payload hf]

theorem toNat_accCount_accumulate (hf : f.wf) (s : State) :
    (accumulate f s).accCount.toNat = f.payload.length := by
  rw [accumulate_accCount, BitVec.toNat_ofNat, Frame.wf.payloadLength_eq hf, Nat.mod_eq_of_lt]
  exact (Frame.wf.payload_le hf).trans_lt (by decide)

/-- Settles O32, by what `accumulate` leaves and by the collaborator's answer. -/
theorem dataFrameFillsTheAccumulator : Obligations.DataFrameFillsTheAccumulator := by
  unfold Obligations.DataFrameFillsTheAccumulator
  intro f apply s hf hr
  set u := { s with txBuf := Memory.zero }
  have hx (c d) : exec (Instr.ofFrame .data f apply c d) s = .next (replied .data f apply zeroClock zeroDraw s) :=
    exec_ofFrame_of_ready hr .data f apply c d
  have hacc : (replied .data f apply zeroClock zeroDraw s).accBuf = s.accBuf.writeBytes 0 f.payload :=
    accBuf_accumulate hf u
  refine ⟨_, hx zeroClock zeroDraw, ?_, ?_, fun k hk => ?_, toNat_accCount_accumulate hf u,
    armReply_sameRx .data f apply zeroClock zeroDraw u, armReply_sameCmb .data f apply zeroClock zeroDraw u,
    armReply_sameHost .data f apply zeroClock zeroDraw u, fun hin c d => ?_⟩
  · cases apply
    · exact shortReply_replyIs f .nack (accumulate f u) rfl
    · exact shortReply_replyIs f .ack (accumulate f u) rfl
  · rw [hacc, readBytes_writeBytes_self]
  · rw [hacc, Memory.read_writeBytes_outside (.inr (by omega))]
  · rw [exec_replyGen_of_inbound hin, hx]

/-- Settles O33: DATA shows its payload, and no other shape of next state shows the collaborator anything
new. -/
theorem dataFrameInvokesTheCollaborator : Obligations.DataFrameInvokesTheCollaborator := by
  unfold Obligations.DataFrameInvokesTheCollaborator
  refine ⟨fun f apply s hf hr => ⟨_, exec_ofFrame_of_ready hr .data f apply zeroClock zeroDraw,
    output_accumulate hf _⟩, fun i s t bytes h hout hnew => ?_⟩
  cases exec_effect h with
  | fed h =>
    obtain ⟨-, -, -, -, hsame⟩ := onlyRx_of_feed h
    exact absurd (hsame.symm.trans hout) hnew
  | returned o hi =>
    rcases hi with rfl | rfl | ⟨frame, rfl⟩ <;>
      cases (congrArg State.output (Host.Outcome.next.inj h)).trans hout
  | @replied _ n f a c d hr hf =>
    obtain rfl : n = .data := by
      by_contra hn
      obtain ⟨-, hsame⟩ := armReply_sameAcc n f a c d { s with txBuf := Memory.zero } hn
      exact hnew (hsame.symm.trans hout)
    exact ⟨hr, hf.data⟩
  | _ => exact absurd hout hnew

/-! ## The time -/

/-- The eight payload bytes of the reply to GET_TIME (R151). -/
def timeBytes (c : Clock) (d : TimeDraw) : List Byte :=
  match sinceEpoch c with
  | some (sec, ns) => bytesLE32 sec ++ bytesLE32 ns
  | none => d.toList

theorem timeBytes_of_none (h : sinceEpoch c = none) : timeBytes c d = d.toList := by
  simp only [timeBytes, h]

theorem timeBytes_of_some {sec ns : BitVec 32} (h : sinceEpoch c = some (sec, ns)) :
    timeBytes c d = bytesLE32 sec ++ bytesLE32 ns := by
  simp only [timeBytes, h]

theorem length_timeBytes (c : Clock) (d : TimeDraw) : (timeBytes c d).length = 8 := by
  cases h : sinceEpoch c with
  | none => rw [timeBytes_of_none h, Vector.length_toList]
  | some x => rw [timeBytes_of_some h]; rfl

theorem timePayload_eq_timeBytes (c : Clock) (d : TimeDraw) (m : Memory) :
    timePayload c d m = m.writeBytes 9 (timeBytes c d) := by
  cases h : sinceEpoch c with
  | none => simp only [timePayload, h, timeBytes_of_none h]
  | some x =>
    rw [timeBytes_of_some h, Memory.writeBytes_append]
    simp only [timePayload, h, wrLE32, length_bytesLE32]

theorem sinceEpoch_before (h : c.sec.toNat * 10 ^ 9 + c.ns.val < 946727935816000000) : sinceEpoch c = none :=
  if_pos (by simp only [NANOS, EPOCH_S, EPOCH_NS_FRAC]; omega)

/-- At `e` nanoseconds after the epoch: its seconds modulo 2^32 and its nanoseconds (R158). -/
theorem sinceEpoch_after {e : Nat} (h : c.sec.toNat * 10 ^ 9 + c.ns.val = 946727935816000000 + e) :
    sinceEpoch c = some (BitVec.ofNat 32 (e / 10 ^ 9 % 2 ^ 32), BitVec.ofNat 32 (e % 10 ^ 9)) := by
  have he : NANOS * c.sec.toNat + c.ns.val - (NANOS * EPOCH_S + EPOCH_NS_FRAC) = e := by
    simp only [NANOS, EPOCH_S, EPOCH_NS_FRAC]
    omega
  have hle : ¬ NANOS * c.sec.toNat + c.ns.val < NANOS * EPOCH_S + EPOCH_NS_FRAC := by
    simp only [NANOS, EPOCH_S, EPOCH_NS_FRAC]
    omega
  simp only [sinceEpoch, if_neg hle, he, NANOS, Nat.reducePow]

/-- Four bytes written low byte first are read back as the number (20_memory.md R54). -/
theorem rdLE32_of_bytes {g : Nat → Byte} {k : Nat} {v : BitVec 32}
    (h : ∀ j, j < 4 → g (k + j) = (bytesLE32 v).getD j 0) : rdLE32 g k = v := by
  have h0 : g k = byteOf v 0 := h 0 (by decide)
  have h1 : g (k + 1) = byteOf v 1 := h 1 (by decide)
  have h2 : g (k + 2) = byteOf v 2 := h 2 (by decide)
  have h3 : g (k + 3) = byteOf v 3 := h 3 (by decide)
  rw [rdLE32, h0, h1, h2, h3, num32_byteOf]

/-- Two numbers written one behind the other are read back (R151). -/
theorem rdLE32_of_two {m : Memory} {k : Nat} {v w : BitVec 32}
    (h : m.readBytes k 8 = bytesLE32 v ++ bytesLE32 w) :
    rdLE32 m.read k = v ∧ rdLE32 m.read (k + 4) = w := by
  have hb := readBytes_eq_iff.mp (show m.readBytes k (bytesLE32 v ++ bytesLE32 w).length = _ from h)
  constructor
  · refine rdLE32_of_bytes fun j hj => ?_
    rw [hb j (by simp; omega), List.getD_append _ _ _ _ hj]
  · refine rdLE32_of_bytes fun j hj => ?_
    rw [Nat.add_assoc, hb (4 + j) (by simp; omega), List.getD_append_right _ _ _ _ (by simp)]
    simp

/-- Settles O36, by whether the clock's reading is before the epoch. -/
theorem getTimeFrameCarriesTheTime : Obligations.GetTimeFrameCarriesTheTime := by
  unfold Obligations.GetTimeFrameCarriesTheTime
  intro f clock draw s hr
  have hx (a) : exec (Instr.ofFrame .getTime f a clock draw) s = .next (replied .getTime f false clock draw s) :=
    exec_ofFrame_of_ready hr .getTime f a clock draw
  have hreply : ReplyIs f 0x0e (s.opcodes.valueOf .setTime) (timeBytes clock draw)
      (replied .getTime f false clock draw s) :=
    replyIs_of_txBuf (fun k => congrArg (Memory.read · k) (timePayload_eq_timeBytes ..)) rfl rfl
  refine ⟨_, _, hx false, length_timeBytes clock draw, hreply, onlyRpg_replied (by decide),
    fun hbefore => timeBytes_of_none (sinceEpoch_before hbefore), fun e he => ?_, fun hin a => ?_⟩
  · obtain ⟨-, hpayload, -⟩ := hreply
    rw [length_timeBytes, timeBytes_of_some (sinceEpoch_after he)] at hpayload
    obtain ⟨hsec, hns⟩ := rdLE32_of_two hpayload
    have hfits : e % 10 ^ 9 % 2 ^ 32 = e % 10 ^ 9 := Nat.mod_eq_of_lt (by omega)
    rw [hsec, hns, BitVec.toNat_ofNat, BitVec.toNat_ofNat, Nat.mod_mod, hfits]
    refine ⟨rfl, rfl, fun hle => ?_⟩
    rw [BitVec.toInt_eq_toNat_of_lt (by simp; omega)]
    exact Int.natCast_nonneg _
  · rw [exec_replyGen_of_inbound hin, hx]

end Sys2Proof.Machine
end

section
/-! PROOFS. The Command Builder's operations one by one (42_command_builder.md R170 to R187): what
BUILD_NEW constructs, what each setter checks and writes, BUILD_BYTE_COUNT and BUILD_CLEAR. -/

namespace Sys2Proof.Machine

variable {i : Instr} {n : OpName} {e : Status} {w : Memory → Memory} {p : List Byte} {m : Memory} {s : State}

/-! ## Bytes -/

theorem bytesLE32_eq_extract (v : BitVec 32) :
    bytesLE32 v = [v.extractLsb' 0 8, v.extractLsb' 8 8, v.extractLsb' 16 8, v.extractLsb' 24 8] := by
  simp only [bytesLE32, byteOf_eq_extract]

theorem bytesBE32_eq_extract (v : BitVec 32) :
    bytesBE32 v = [v.extractLsb' 24 8, v.extractLsb' 16 8, v.extractLsb' 8 8, v.extractLsb' 0 8] := by
  simp only [bytesBE32, byteOf_eq_extract]

/-- The source node stands in the high nibble of the route, the destination in the low one
(20_memory.md R55). -/
theorem packRoute_eq_append (src dst : BitVec 4) : packRoute src dst = src ++ dst := by
  apply BitVec.eq_of_toNat_eq
  rw [BitVec.toNat_append, Nat.shiftLeft_eq, Nat.mul_comm, ← Nat.two_pow_add_eq_or_of_lt dst.isLt]
  simp only [packRoute, BitVec.toNat_ofNat]
  omega

/-- Two sequences read one behind the other are each read at their own place. -/
theorem readBytes_append {a j k : Nat} {bs cs : List Byte} (hj : bs.length = j) (hk : cs.length = k)
    (h : m.readBytes a (j + k) = bs ++ cs) : m.readBytes a j = bs ∧ m.readBytes (a + j) k = cs := by
  subst hj hk
  rw [← List.length_append] at h
  have hget := readBytes_eq_iff.mp h
  rw [List.length_append] at hget
  constructor
  · refine readBytes_eq_iff.mpr fun k hk => ?_
    rw [hget k (by omega), List.getD_append _ _ _ _ hk]
  · refine readBytes_eq_iff.mpr fun k hk => ?_
    rw [Nat.add_assoc, hget (bs.length + k) (by omega), List.getD_append_right _ _ _ _ (Nat.le_add_right ..),
      Nat.add_sub_cancel_left]

/-! ## BUILD_NEW, BUILD_BYTE_COUNT, BUILD_CLEAR -/

theorem readBytes_newCommand (m : OpcodeMap) (opcode : Byte) (hwId msgId : BitVec 16) (src dst : BitVec 4) :
    (newCommand m opcode hwId msgId src dst).readBytes 0 9 =
      [0x22, 0x69, defaultLen (m.nameOf opcode), hwId.extractLsb' 0 8, hwId.extractLsb' 8 8,
        msgId.extractLsb' 0 8, msgId.extractLsb' 8 8, src ++ dst, opcode] := by
  rw [← packRoute_eq_append]
  refine readBytes_eq_iff (bs := [_, _, _, _, _, _, _, _, _]).mpr fun k _ => ?_
  rw [Nat.zero_add, read_newCommand]
  simp only [byteOf_eq_extract]

theorem read_newCommand_beyond (m : OpcodeMap) (opcode : Byte) (hwId msgId : BitVec 16) (src dst : BitVec 4)
    {a : Nat} (ha : 9 ≤ a) : (newCommand m opcode hwId msgId src dst).read a = 0 := by
  rw [read_newCommand]
  exact List.getD_eq_default _ _ ha

/-- Settles O41: the constructed buffer read back, and `DefaultLen` of each opcode and of no opcode. -/
theorem buildNewConstructsACommand : Obligations.BuildNewConstructsACommand := by
  unfold Obligations.BuildNewConstructsACommand
  intro opcode hwId msgId src dst s
  refine ⟨_, _, rfl, readBytes_newCommand s.opcodes opcode hwId msgId src dst,
    fun a ha => read_newCommand_beyond _ _ _ _ _ _ ha, rfl, rfl, rfl, onlyCmb_update .., ?_, ?_⟩
  · rintro hwf n rfl
    rw [OpcodeMap.nameOf_valueOf hwf]
    cases n <;> decide
  · intro hnone
    rw [OpcodeMap.nameOf_eq_none.mpr hnone]
    rfl

/-- Settles O49: L + 3 fits 9 bits. -/
theorem buildByteCountReturnsLengthPlusThree : Obligations.BuildByteCountReturnsLengthPlusThree := by
  unfold Obligations.BuildByteCountReturnsLengthPlusThree
  exact fun s => ⟨_, byteCount s, rfl, rfl, toNat_ofNat_frameEnd _, ⟨rfl, rfl, rfl, rfl⟩, ⟨rfl, rfl, rfl⟩,
    ⟨rfl, rfl⟩, ⟨rfl, rfl, rfl, rfl⟩, rfl, rfl⟩

/-- Settles O50: the zero buffer and the status are all that is written. -/
theorem buildClearZeroesTheCommand : Obligations.BuildClearZeroesTheCommand := by
  unfold Obligations.BuildClearZeroesTheCommand
  exact fun s => ⟨_, rfl, Memory.read_zero, rfl, rfl, rfl,
    onlyCmb_update s Memory.zero s.cmbValid s.cmbOpcode .ok⟩

/-! ## What a setter checks -/

/-- R173's two checks, of every setter. -/
theorem checksSetter_of_setterOpcode (hi : setterOpcode i = some n) (s : State) : ChecksSetter n i s := by
  obtain ⟨arg, p, hx, -⟩ := exec_setter hi
  exact ⟨fun hv => (hx s).trans (setter_noCommand hv), fun hv ho => (hx s).trans (setter_invalidOperation hv ho)⟩

/-- Settles O42: once both checks pass, a setter answers OK or the status of its own argument check. -/
theorem settersCheckTheConstructedOpcode : Obligations.SettersCheckTheConstructedOpcode := by
  unfold Obligations.SettersCheckTheConstructedOpcode
  intro i n s hi
  refine ⟨checksSetter_of_setterOpcode hi s, fun ha => ?_⟩
  obtain ⟨arg, p, hx, -, harg⟩ := exec_setter hi
  cases arg with
  | none => exact ⟨_, (hx s).trans (setter_accepted ha), by simp⟩
  | some e =>
    refine ⟨_, (hx s).trans (setter_badArgument ha), ?_⟩
    rcases harg e rfl with rfl | rfl | rfl <;> simp

section
variable {P : Prop} [Decidable P]

theorem setter_refused_of_not (ha : AcceptsSetter n s) (h : ¬ P) :
    setter n (checkArgument (decide P) e) w s = .next { s with cmbStatus := e } := by
  rw [decide_eq_false h, checkArgument_false, setter_badArgument ha]

theorem setter_accepted_of (ha : AcceptsSetter n s) (h : P) :
    setter n (checkArgument (decide P) e) w s = .next { s with cmbBuf := w s.cmbBuf, cmbStatus := .ok } := by
  rw [decide_eq_true h, checkArgument_true, setter_accepted ha]

end

/-! ## What each setter writes -/

/-- An accepted setter with `k` payload bytes: the payload, the length byte 6 + k, and nothing else (R175). -/
theorem putPayload_written {k : Nat} (hk : p.length = k) (s : State) :
    (putPayload p s.cmbBuf).readBytes 9 k = p ∧
      (putPayload p s.cmbBuf).read 2 = BitVec.ofNat 8 (HDR_AFTER_LEN + k) ∧
      SetterWrote k s { s with cmbBuf := putPayload p s.cmbBuf, cmbStatus := .ok } := by
  subst hk
  exact ⟨readBytes_putPayload p _, Memory.read_write_self .., setterWrote_putPayload p s⟩

/-- Settles O43, by whether the bytes fit behind the header. -/
theorem buildDebugAndDataWriteThePayload : Obligations.BuildDebugAndDataWriteThePayload := by
  unfold Obligations.BuildDebugAndDataWriteThePayload
  intro bytes s n i h
  obtain ⟨hi, hx⟩ : setterOpcode i = some n ∧ exec i s =
      setter n (checkArgument (decide (bytes.length ≤ PAYLOAD_CAP)) .payloadTooLarge) (putPayload bytes) s := by
    simp only [List.mem_cons, Prod.mk.injEq, List.not_mem_nil, or_false] at h
    rcases h with ⟨rfl, rfl⟩ | ⟨rfl, rfl⟩ <;> exact ⟨rfl, rfl⟩
  exact ⟨checksSetter_of_setterOpcode hi s,
    fun ha hlarge => hx.trans (setter_refused_of_not ha hlarge.not_ge),
    fun ha hfits => ⟨_, hx.trans (setter_accepted_of ha hfits), readBytes_putPayload bytes _,
      toNat_length_putPayload _ hfits, setterWrote_putPayload bytes s⟩⟩

/-- Settles O44, by whether the data fits behind flash_id and the address. -/
theorem buildWriteExtWritesThePayload : Obligations.BuildWriteExtWritesThePayload := by
  unfold Obligations.BuildWriteExtWritesThePayload
  intro address data flashId s
  refine ⟨checksSetter_of_setterOpcode rfl s, fun ha hlarge => setter_refused_of_not ha hlarge.not_ge,
    fun ha hfits => ?_⟩
  obtain ⟨hread, hlength, hwrote⟩ := putPayload_written (p := (flashId :: bytesBE32 address) ++ data)
    (List.length_append ..) s
  obtain ⟨hhead, hdata⟩ := readBytes_append rfl rfl hread
  refine ⟨_, setter_accepted_of ha hfits, hhead.trans ?_, hdata, ?_, hwrote⟩
  · rw [bytesBE32_eq_extract]
  · refine (congrArg BitVec.toNat hlength).trans ?_
    simp [HDR_AFTER_LEN]
    omega

/-- Settles O45: neither setter checks its arguments. -/
theorem buildEraseAndReadExtWriteThePayload : Obligations.BuildEraseAndReadExtWriteThePayload := by
  unfold Obligations.BuildEraseAndReadExtWriteThePayload
  intro address dataLength flashId s
  refine ⟨checksSetter_of_setterOpcode rfl s, checksSetter_of_setterOpcode rfl s, fun ha => ?_, fun ha => ?_⟩
  · obtain ⟨hread, hlength, hwrote⟩ := putPayload_written (p := flashId :: bytesBE32 address) rfl s
    exact ⟨_, setter_accepted ha, hread.trans (by rw [bytesBE32_eq_extract]), hlength, hwrote⟩
  · obtain ⟨hread, hlength, hwrote⟩ :=
      putPayload_written (p := flashId :: (bytesBE32 address ++ [dataLength])) rfl s
    exact ⟨_, setter_accepted ha, hread.trans (by simp [bytesBE32_eq_extract]), hlength, hwrote⟩

/-- Settles O46, by whether there are 128 bytes. -/
theorem buildPagesWriteThePayload : Obligations.BuildPagesWriteThePayload := by
  unfold Obligations.BuildPagesWriteThePayload
  intro pageNumber address pageData s
  refine ⟨checksSetter_of_setterOpcode rfl s, checksSetter_of_setterOpcode rfl s,
    fun ha hsize => setter_refused_of_not ha hsize, fun ha hsize => setter_refused_of_not ha hsize,
    fun ha hsize => ?_, fun ha hsize => ?_⟩
  · obtain ⟨hread, hlength, hwrote⟩ := putPayload_written (p := [pageNumber] ++ pageData) (k := 1 + 128)
      (by rw [List.length_append, hsize, List.length_singleton]) s
    obtain ⟨hnumber, hdata⟩ := readBytes_append (List.length_singleton (a := pageNumber)) hsize hread
    exact ⟨_, setter_accepted_of ha hsize, List.head_eq_of_cons_eq hnumber, hdata, hlength, hwrote⟩
  · obtain ⟨hread, hlength, hwrote⟩ := putPayload_written (p := bytesBE32 address ++ pageData) (k := 4 + 128)
      (by rw [List.length_append, hsize, length_bytesBE32]) s
    obtain ⟨haddress, hdata⟩ := readBytes_append (length_bytesBE32 address) hsize hread
    exact ⟨_, setter_accepted_of ha hsize, haddress.trans (bytesBE32_eq_extract address), hdata, hlength, hwrote⟩

/-- Settles O47, by whether the mode is one of R85's. -/
theorem buildPowerWritesTheMode : Obligations.BuildPowerWritesTheMode := by
  unfold Obligations.BuildPowerWritesTheMode
  intro mode s
  obtain ⟨hread, hlength, hwrote⟩ := putPayload_written (p := [mode]) rfl s
  exact ⟨checksSetter_of_setterOpcode rfl s, fun ha hmode => setter_refused_of_not ha hmode.not_ge,
    fun ha hmode => ⟨_, setter_accepted_of ha hmode, List.head_eq_of_cons_eq hread, hlength, hwrote⟩⟩

/-- Settles O48: no value of either field is refused. -/
theorem buildSetTimeWritesTheTime : Obligations.BuildSetTimeWritesTheTime := by
  unfold Obligations.BuildSetTimeWritesTheTime
  intro seconds nanoseconds s
  obtain ⟨hread, hlength, hwrote⟩ := putPayload_written (p := bytesLE32 seconds ++ bytesLE32 nanoseconds) rfl s
  exact ⟨checksSetter_of_setterOpcode rfl s, fun ha =>
    ⟨_, setter_accepted ha, hread.trans (by simp [bytesLE32_eq_extract]), hlength, hwrote⟩⟩

end Sys2Proof.Machine
end

section
/-! PROOFS. The Command Builder as a whole (42_command_builder.md R172, R183, R188): it depends on its own
registers and the opcode assignment alone, no setter writes the header but its length byte, and a built
command is a legal frame. -/

namespace Sys2Proof.Machine

variable {i : Instr} {n : OpName} {s s' t : State}

/-! ## What an operation depends on -/

/-- A state with the Command Builder's registers and the output replaced. -/
abbrev withBuilder (m : Memory) (v : Bool) (op : Byte) (e : Status) (o : Output) (s : State) : State :=
  { s with cmbBuf := m, cmbValid := v, cmbOpcode := op, cmbStatus := e, output := o }

/-- The two states agree on all that R172 lets a builder operation read, and on the output. -/
abbrev BuilderAgrees (s s' : State) : Prop :=
  SameCmb s s' ∧ s'.opcodes = s.opcodes ∧ s'.output = s.output

theorem BuilderAgrees.acceptsSetter (h : BuilderAgrees s s') (ha : AcceptsSetter n s) : AcceptsSetter n s' := by
  obtain ⟨⟨-, hv, ho, -⟩, hop, -⟩ := h
  exact ⟨hv.trans ha.1, by rw [ho, hop, ha.2]⟩

/-- A setter has a next state, and writes the same into every state that agrees for the builder. -/
theorem setter_writes_alike (n : OpName) (arg : Option Status) (w : Memory → Memory) (s : State) :
    ∃ m e, setter n arg w s = .next { s with cmbBuf := m, cmbStatus := e } ∧
      ∀ s', BuilderAgrees s s' → setter n arg w s' = .next { s' with cmbBuf := m, cmbStatus := e } := by
  rcases Bool.eq_false_or_eq_true s.cmbValid with hvalid | hvalid
  · by_cases hcode : s.cmbOpcode = s.opcodes.valueOf n
    · have ha : AcceptsSetter n s := ⟨hvalid, hcode⟩
      cases arg with
      | none =>
        refine ⟨w s.cmbBuf, .ok, setter_accepted ha, fun s' h => ?_⟩
        rw [setter_accepted (h.acceptsSetter ha), h.1.1]
      | some e =>
        refine ⟨s.cmbBuf, e, setter_badArgument ha, fun s' h => ?_⟩
        rw [setter_badArgument (h.acceptsSetter ha), h.1.1]
    · refine ⟨s.cmbBuf, .invalidOperation, setter_invalidOperation hvalid hcode, fun s' h => ?_⟩
      obtain ⟨⟨hm, hv, ho, -⟩, hop, -⟩ := h
      rw [setter_invalidOperation (hv.trans hvalid) (by rwa [ho, hop]), hm]
  · refine ⟨s.cmbBuf, .noCommand, setter_noCommand hvalid, fun s' h => ?_⟩
    obtain ⟨⟨hm, hv, -, -⟩, -, -⟩ := h
    rw [setter_noCommand (hv.trans hvalid), hm]

/-- The operation has a next state, and replaces the builder's registers and the output alike in every
state that agrees for the builder. -/
abbrev BuildsAlike (i : Instr) (s : State) : Prop :=
  ∃ m v op e o, exec i s = .next (withBuilder m v op e o s) ∧
    ∀ s', BuilderAgrees s s' → exec i s' = .next (withBuilder m v op e o s')

theorem buildsAlike_of_setter (hi : setterOpcode i = some n) (s : State) : BuildsAlike i s := by
  obtain ⟨arg, p, hx, -⟩ := exec_setter hi
  obtain ⟨m, e, hs, halike⟩ := setter_writes_alike n arg (putPayload p) s
  refine ⟨m, s.cmbValid, s.cmbOpcode, e, s.output, (hx s).trans hs, fun s' h => (hx s').trans ?_⟩
  obtain ⟨⟨-, hv, ho, -⟩, -, hout⟩ := id h
  rw [halike s' h, withBuilder, ← hv, ← ho, ← hout]

theorem buildsAlike_of_isBuilderOp (hi : isBuilderOp i = true) (s : State) : BuildsAlike i s := by
  cases i
  case buildNew opcode hwId msgId src dst =>
    refine ⟨newCommand s.opcodes opcode hwId msgId src dst, true, opcode, .ok, s.output, rfl, fun s' h => ?_⟩
    obtain ⟨-, hop, hout⟩ := h
    rw [← hop, ← hout]
    rfl
  case buildByteCount =>
    refine ⟨s.cmbBuf, s.cmbValid, s.cmbOpcode, s.cmbStatus, .byteCount (byteCount s), rfl, fun s' h => ?_⟩
    obtain ⟨⟨hm, hv, ho, he⟩, -, -⟩ := h
    rw [byteCount, ← hm, ← hv, ← ho, ← he]
    rfl
  case buildClear =>
    refine ⟨Memory.zero, s.cmbValid, s.cmbOpcode, .ok, s.output, rfl, fun s' h => ?_⟩
    obtain ⟨⟨-, hv, ho, -⟩, -, hout⟩ := h
    rw [← hv, ← ho, ← hout]
    rfl
  case buildDebug | buildData | buildWriteExt | buildEraseSectorExt | buildReadExt | buildWritePage
      | buildWritePageAddr32 | buildPower | buildSetTime => exact buildsAlike_of_setter rfl s
  all_goals cases hi

/-- Settles O52: what is replaced is the builder's registers and the output, alike in both states. -/
theorem builderIsIndependentOfTheOtherUnits : Obligations.BuilderIsIndependentOfTheOtherUnits := by
  unfold Obligations.BuilderIsIndependentOfTheOtherUnits
  intro i s s' t hi hx
  obtain ⟨m, v, op, e, o, hs, halike⟩ := buildsAlike_of_isBuilderOp hi s
  obtain rfl := Host.Outcome.next.inj (hs.symm.trans hx)
  exact ⟨⟨rfl, rfl, rfl, rfl⟩, ⟨rfl, rfl, rfl⟩, ⟨rfl, rfl⟩, ⟨rfl, rfl⟩, fun hc hop hout =>
    ⟨_, halike s' ⟨hc, hop, hout⟩, ⟨rfl, rfl, rfl, rfl⟩, rfl⟩⟩

/-! ## What the setters leave of a command -/

/-- What a setter leaves in `cmb_buf`: the command as it was, or with a payload that fits behind the header. -/
theorem cmbBuf_of_setter (hi : setterOpcode i = some n) (h : exec i s = .next t) :
    t.cmbBuf = s.cmbBuf ∨ ∃ p, p.length ≤ PAYLOAD_CAP ∧ t.cmbBuf = putPayload p s.cmbBuf := by
  obtain ⟨arg, p, hx, hp, -⟩ := exec_setter hi
  rcases setter_cases ((hx s).symm.trans h) with ⟨e, rfl, -⟩ | ⟨-, hn, rfl⟩
  · exact .inl rfl
  · exact .inr ⟨p, hp hn, rfl⟩

/-- The header bytes but the length byte stay (R183). -/
theorem read_header_of_setter (hi : setterOpcode i = some n) (h : exec i s = .next t) {a : Nat} (h9 : a < 9)
    (h2 : a ≠ 2) : t.cmbBuf.read a = s.cmbBuf.read a := by
  rcases cmbBuf_of_setter hi h with hm | ⟨p, -, hm⟩
  · rw [hm]
  · rw [hm, read_putPayload, if_neg h2, if_neg (by omega)]

/-- Settles O51: BUILD_CLEAR leaves those bytes zero, and the setter leaves them. -/
theorem settersLeaveTheHeaderAlone : Obligations.SettersLeaveTheHeaderAlone := by
  unfold Obligations.SettersLeaveTheHeaderAlone
  intro i s t a hi hx h9 h2
  obtain ⟨n, hi⟩ := Option.isSome_iff_exists.mp hi
  refine ⟨read_header_of_setter hi hx h9 h2, fun u v hu hv => ?_⟩
  obtain rfl := Host.Outcome.next.inj hu
  exact read_header_of_setter hi hv h9 h2

/-- A command stays a legal frame: the setter's length byte is 6 plus its payload (R188). -/
theorem HoldsLegalFrame.setter (hm : HoldsLegalFrame s.cmbBuf) (hi : setterOpcode i = some n)
    (h : exec i s = .next t) : HoldsLegalFrame t.cmbBuf := by
  obtain ⟨h0, h1, h6⟩ := hm
  refine ⟨(read_header_of_setter hi h (by decide) (by decide)).trans h0,
    (read_header_of_setter hi h (by decide) (by decide)).trans h1, ?_⟩
  rcases cmbBuf_of_setter hi h with hm | ⟨p, hp, hm⟩
  · rwa [hm]
  · rw [hm, toNat_length_putPayload _ hp]
    exact Nat.le_add_right ..

theorem holdsLegalFrame_newCommand (m : OpcodeMap) (opcode : Byte) (hwId msgId : BitVec 16) (src dst : BitVec 4) :
    HoldsLegalFrame (newCommand m opcode hwId msgId src dst) := by
  simp only [HoldsLegalFrame, read_newCommand]
  exact ⟨rfl, rfl, toNat_defaultLen _⟩

/-- Any sequence of setters keeps a command a legal frame, by induction on the sequence. -/
theorem HoldsLegalFrame.setters {is : List Instr} (hm : HoldsLegalFrame s.cmbBuf)
    (his : ∀ i ∈ is, (setterOpcode i).isSome = true) : ∃ t, execAll is s = .next t ∧ HoldsLegalFrame t.cmbBuf := by
  induction is generalizing s with
  | nil => exact ⟨s, rfl, hm⟩
  | cons i is ih =>
    obtain ⟨hi, his⟩ := List.forall_mem_cons.mp his
    obtain ⟨n, hi⟩ := Option.isSome_iff_exists.mp hi
    obtain ⟨_, _, _, _, _, hx, -⟩ := buildsAlike_of_setter hi s
    obtain ⟨t, ht, hlegal⟩ := ih (hm.setter hi hx) his
    exact ⟨t, (execAll_cons_of_next hx).trans ht, hlegal⟩

/-- Settles O53: BUILD_NEW writes a legal frame and the setters keep it, so the bytes sent of it are one,
and an idle parser completes on a legal frame (O23). -/
theorem builtCommandsCompleteAParser : Obligations.BuiltCommandsCompleteAParser := by
  unfold Obligations.BuiltCommandsCompleteAParser
  intro opcode hwId msgId src dst setters s u hsetters hu
  obtain ⟨built, hbuilt, hnew⟩ : ∃ b, exec (.buildNew opcode hwId msgId src dst) s = .next b ∧
      HoldsLegalFrame b.cmbBuf := ⟨_, rfl, holdsLegalFrame_newCommand s.opcodes opcode hwId msgId src dst⟩
  obtain ⟨t, ht, hlegal⟩ := hnew.setters hsetters
  obtain ⟨⟨v, hv, hholds, -⟩, -⟩ := legalFrameReachesComplete _ u hlegal.legalFrame_sentBytes hu
  exact ⟨t, v, (execAll_cons_of_next hbuilt).trans ht, hlegal, hv, hholds⟩

end Sys2Proof.Machine
end

section
/-! PROOFS. The Frame Decoder (43_frame_decoder.md R210 to R220): what DESCRIBE reads from its 258 bytes,
and what it says of the header and of each opcode's payload. -/

namespace Sys2Proof.Machine

variable {n : OpName} {node : BitVec 4} {name : NodeName} {frame : Vector Byte FRAME_CAP} {f : Nat → Byte}
  {s t : State} {d : Description} {a e : Nat}

/-! ## The bytes of the operand -/

theorem getElem_eq_operandByte (frame : Vector Byte FRAME_CAP) (ha : a < FRAME_CAP) :
    frame[a] = operandByte frame a := by
  rw [operandByte, List.getD_eq_getElem _ _ (by rwa [Vector.length_toList]), Vector.getElem_toList]

/-- Bytes `a` to `e - 1` of the operand, where the operand has them all (R218). -/
theorem slice_operandByte (frame : Vector Byte FRAME_CAP) (he : e ≤ FRAME_CAP) :
    slice (operandByte frame) a e = (frame.toList.take e).drop a := by
  have hlen : frame.toList.length = FRAME_CAP := Vector.length_toList
  apply List.ext_getElem
  · rw [length_slice, List.length_drop, List.length_take, hlen, Nat.min_eq_left he]
  · intro k hk _
    rw [length_slice] at hk
    rw [getElem_slice, List.getElem_drop, List.getElem_take, ← getElem_eq_operandByte frame (by omega)]
    rfl

/-- The frame end L + 3 lies in the operand, whatever its length byte says. -/
theorem frameEnd_le_cap (l : Byte) : frameEnd l ≤ FRAME_CAP :=
  Nat.add_le_add_right (Nat.le_of_lt_succ l.isLt) 3

/-- A payload from `a` on is the operand's bytes up to L + 3. -/
theorem slice_operandByte_frameEnd (frame : Vector Byte FRAME_CAP) (a : Nat) :
    slice (operandByte frame) a (frameEnd (operandByte frame 2)) =
      (frame.toList.take ((operandByte frame 2).toNat + 3)).drop a :=
  slice_operandByte frame (frameEnd_le_cap _)

/-! ## Numbers -/

theorem toNat_append_byte {w : Nat} (v : BitVec w) (b : Byte) : (v ++ b).toNat = 2 ^ 8 * v.toNat + b.toNat := by
  rw [BitVec.toNat_append, Nat.shiftLeft_eq, Nat.mul_comm, ← Nat.two_pow_add_eq_or_of_lt b.isLt]

/-- A 32-bit number is its bytes put side by side, the most significant first. -/
theorem num32_eq_append (b0 b1 b2 b3 : Byte) : num32 b0 b1 b2 b3 = b3 ++ b2 ++ b1 ++ b0 := by
  apply BitVec.eq_of_toNat_eq
  rw [toNat_num32, toNat_append_byte, toNat_append_byte, toNat_append_byte]
  omega

theorem rdBE32_eq_append (f : Nat → Byte) (a : Nat) : rdBE32 f a = f a ++ f (a + 1) ++ f (a + 2) ++ f (a + 3) :=
  num32_eq_append ..

theorem rdLE32_eq_append (f : Nat → Byte) (a : Nat) : rdLE32 f a = f (a + 3) ++ f (a + 2) ++ f (a + 1) ++ f a :=
  num32_eq_append ..

/-! ## Names of codes -/

theorem toNat_routeSrc (r : Byte) : (routeSrc r).toNat = r.toNat / 16 := by
  rw [routeSrc, BitVec.toNat_ofNat, Nat.mod_eq_of_lt]
  exact Nat.div_lt_of_lt_mul r.isLt

theorem toNat_routeDst (r : Byte) : (routeDst r).toNat = r.toNat % 16 := by
  rw [routeDst, BitVec.toNat_ofNat, Nat.mod_mod]

/-- R217's four names. -/
theorem nodeName_of_mem
    (h : (node.toNat, name) ∈ [(0, NodeName.ground), (1, .comms), (2, .cdh), (3, .payload)]) :
    nodeName node = name := by
  simp only [List.mem_cons, Prod.mk.injEq, List.not_mem_nil, or_false] at h
  rcases h with ⟨hk, rfl⟩ | ⟨hk, rfl⟩ | ⟨hk, rfl⟩ | ⟨hk, rfl⟩ <;> simp only [nodeName, hk]

theorem nodeName_of_four_le (h : 4 ≤ node.toNat) : nodeName node = .unknown := by
  unfold nodeName
  split
  case h_5 => rfl
  all_goals omega

/-- R85's nine modes by their codes, and no mode above 8. -/
theorem modeName_eq_getElem? (code : Byte) : modeName code =
    [PowerMode.run, .sleep, .lowpowerrun, .lowpowersleep, .stop0, .stop1, .stop2, .standby,
      .shutdown][code.toNat]? := by
  unfold modeName
  split
  case h_10 =>
    simp only [imp_false] at *
    exact (List.getElem?_eq_none (by simp only [List.length_cons, List.length_nil]; omega)).symm
  all_goals next h => rw [h]; rfl

/-! ## The operation -/

theorem exec_describe (frame : Vector Byte FRAME_CAP) (s : State) : exec (.describe frame) s =
    .next { s with output := .description (describe s.opcodes (operandByte frame)) } := rfl

theorem onlyOutput_update (s : State) (o : Output) : OnlyOutput s { s with output := o } :=
  ⟨⟨rfl, rfl, rfl, rfl⟩, ⟨rfl, rfl, rfl⟩, ⟨rfl, rfl⟩, ⟨rfl, rfl, rfl, rfl⟩, rfl, rfl⟩

/-- The Description a next state shows is that of the operand under the state's opcodes. -/
theorem eq_describe_of_exec (h : exec (.describe frame) s = .next t) (ho : t.output = .description d) :
    d = describe s.opcodes (operandByte frame) := by
  obtain rfl := Host.Outcome.next.inj h
  exact (Output.description.inj ho).symm

/-- Under R81 the opcode byte's opcode decides the payload's description. -/
theorem describe_payload_of_valueOf {m : OpcodeMap} (hm : m.wf) (hn : m.valueOf n = f 8) :
    (describe m f).payload = payloadDesc (some n) f := by
  rw [describe, ← hn, OpcodeMap.nameOf_valueOf hm]

/-- Settles O54, by whether the opcode byte has a name, and by the two nibbles of the route. -/
theorem describeGivesTheHeaderFields : Obligations.DescribeGivesTheHeaderFields := by
  unfold Obligations.DescribeGivesTheHeaderFields
  intro frame s
  simp only [getElem_eq_operandByte]
  refine ⟨_, _, exec_describe frame s, onlyOutput_update s _, rfl, fun hwf n hn => ?_, fun hnone => ?_,
    toNat_num16 .., toNat_num16 .., fun k name hk => ⟨fun hsrc => ?_, fun hdst => ?_⟩, fun hsrc => ?_,
    fun hdst => ?_⟩
  · exact (congrArg s.opcodes.nameOf hn.symm).trans (OpcodeMap.nameOf_valueOf hwf n)
  · have hname : s.opcodes.nameOf (operandByte frame 8) = none := OpcodeMap.nameOf_eq_none.mpr hnone
    exact ⟨hname, congrArg (payloadDesc · _) hname⟩
  · exact nodeName_of_mem (by rwa [toNat_routeSrc, show _ / 16 = k from hsrc])
  · exact nodeName_of_mem (by rwa [toNat_routeDst, show _ % 16 = k from hdst])
  · exact nodeName_of_four_le ((toNat_routeSrc _).symm ▸ hsrc)
  · exact nodeName_of_four_le ((toNat_routeDst _).symm ▸ hdst)

/-- Settles O55, opcode by opcode: the fields are slices and numbers of the operand's bytes. -/
theorem describeGivesThePayloadFields : Obligations.DescribeGivesThePayloadFields := by
  unfold Obligations.DescribeGivesThePayloadFields
  intro frame s t d n hwf h ho hn
  simp only [getElem_eq_operandByte] at hn ⊢
  have hd : d.payload = payloadDesc (some n) (operandByte frame) :=
    (congrArg Description.payload (eq_describe_of_exec h ho)).trans (describe_payload_of_valueOf hwf hn)
  rw [hd, ← slice_operandByte_frameEnd, ← slice_operandByte_frameEnd, ← slice_operandByte frame (by decide),
    ← slice_operandByte frame (by decide), ← modeName_eq_getElem?]
  refine ⟨?debug, ?data, ?writeExt, ?eraseSectorExt, ?readExt, ?writePage, ?writePageAddr32, ?power, ?setTime,
    ?nack, ?others⟩
  case others =>
    intro hmem
    simp only [List.mem_cons, List.not_mem_nil, or_false] at hmem
    rcases hmem with rfl | rfl | rfl | rfl | rfl | rfl | rfl | rfl | rfl | rfl <;> rfl
  all_goals rintro rfl
  case writeExt | eraseSectorExt | readExt => exact ⟨_, rfl, rdBE32_eq_append _ 10⟩
  case writePageAddr32 => exact ⟨_, rfl, rdBE32_eq_append _ 9⟩
  case setTime => exact ⟨_, _, rfl, rdLE32_eq_append _ 9, rdLE32_eq_append _ 13⟩
  all_goals rfl

end Sys2Proof.Machine
end

section
/-! PROOFS. The conditions of 60_exceptions.md: every operation completes in one step and no condition
faults (R240, R257), an operand outside its range has no step (R257, 70_reset_and_hazards.md R284), and
each status and flag changes only by the operations named for it (R249, 10_state.md R38). -/

namespace Sys2Proof

variable {ops : List Byte} {src dst : Byte}

/-! ## Operands outside their range -/

theorem decodeReplyGen_outOfRange {ap : Byte} {ns : BitVec 32} (h : NANOS ≤ ns.toNat ∨ 2 ≤ ap.toNat)
    (sec : BitVec 64) (d : TimeDraw) :
    decodeReplyGen (ap :: (bytesLE64 sec ++ bytesLE32 ns ++ d.toList)) = .error .operandOutOfRange := by
  have hd : d.toList = [d[0], d[1], d[2], d[3], d[4], d[5], d[6], d[7]] :=
    congrArg Vector.toList (TimeDraw.eq_bytes d)
  simp only [hd, bytesLE64, bytesLE32, List.cons_append, List.nil_append, decodeReplyGen, num32_byteOf]
  rcases h with hns | hap
  · simp [nanosOperand_error hns]
  · simp [bitOperand_error hap]

theorem decodeBuildNew_outOfRange (h : 16 ≤ src.toNat ∨ 16 ≤ dst.toNat) (op h0 h1 g0 g1 : Byte) :
    decodeBuildNew [op, h0, h1, g0, g1, src, dst] = .error .operandOutOfRange := by
  rcases h with hsrc | hdst
  · simp [decodeBuildNew, nibbleOperand_error hsrc]
  · simp [decodeBuildNew, nibbleOperand_error hdst]

theorem decodeDescribe_outOfRange (h : ops.length ≠ FRAME_CAP) :
    decodeDescribe ops = .error .operandOutOfRange := dif_neg h

/-- Settles O10, by the operation: its operand decoder refuses, and the step with it. -/
theorem operandsOutOfRangeHaveNoStep : Obligations.OperandsOutOfRangeHaveNoStep := by
  unfold Obligations.OperandsOutOfRangeHaveNoStep
  refine ⟨fun s rest ap sec ns draw hp h => ?_, fun s rest frame hp h => ?_,
    fun s rest op h0 h1 g0 g1 src dst hp h => ?_⟩
  · exact Machine.step_of_error hp (decodeReplyGen_outOfRange h sec draw)
  · exact Machine.step_of_error hp (decodeDescribe_outOfRange h)
  · exact Machine.step_of_error hp (decodeBuildNew_outOfRange h op h0 h1 g0 g1)

end Sys2Proof

namespace Sys2Proof.Machine

variable {i : Instr} {n : OpName} {f : Frame} {s t : State}

/-! ## Every operation completes -/

theorem answerFrame_completes (r : State → State) (s : State) : ∃ t, answerFrame r s = .next t := by
  cases h : notReady s with
  | true => exact ⟨_, answerFrame_of_not_ready r (notReady_eq_true.mp h)⟩
  | false => exact ⟨_, answerFrame_of_ready r (notReady_eq_false.mp h)⟩

theorem exec_completes_of_frame (hf : i.frame? = some (n, f)) (s : State) : ∃ t, exec i s = .next t := by
  obtain ⟨a, c, d, rfl⟩ := eq_ofFrame_of_frame? hf
  rw [exec_ofFrame]
  exact answerFrame_completes _ s

theorem exec_replyGen_completes (a : Bool) (c : Clock) (d : TimeDraw) (s : State) :
    ∃ t, exec (.replyGen a c d) s = .next t := by
  cases h : notReady s with
  | true => exact ⟨_, exec_replyGen_of_not_ready (notReady_eq_true.mp h)⟩
  | false =>
    have hr : ReadyToReply s := notReady_eq_false.mp h
    cases hn : s.opcodes.nameOf (s.rxBuf.read 8) with
    | some n => exact ⟨_, exec_replyGen_of_ready hr hn a c d⟩
    | none => exact ⟨_, exec_replyGen_of_unassigned hr (OpcodeMap.nameOf_eq_none.mp hn)⟩

theorem exec_replyTake_completes (s : State) : ∃ t, exec .replyTake s = .next t := by
  cases h : s.txPending with
  | true => exact ⟨_, exec_replyTake_of_pending h⟩
  | false => exact ⟨_, exec_replyTake_of_not_pending h⟩

theorem exec_completes_of_isBuilderOp (hi : isBuilderOp i = true) (s : State) : ∃ t, exec i s = .next t := by
  obtain ⟨m, v, op, e, o, hx, -⟩ := buildsAlike_of_isBuilderOp hi s
  exact ⟨_, hx⟩

/-- FEED alone needs the parser's invariant: R28(d) keeps `rx_cursor` inside `rx_buf`. -/
theorem ParserInv.exec_completes (h : ParserInv s) (i : Instr) : ∃ t, exec i s = .next t := by
  cases i
  case feed b =>
    obtain ⟨t, ht, -⟩ := h.feed b
    exact ⟨t, ht⟩
  case rxClear => exact ⟨_, exec_rxClear s⟩
  case rxQuery => exact ⟨_, exec_rxQuery s⟩
  case replyGen a c d => exact exec_replyGen_completes a c d s
  case replyTake => exact exec_replyTake_completes s
  case describe frame => exact ⟨_, exec_describe frame s⟩
  case buildNew | buildDebug | buildData | buildWriteExt | buildEraseSectorExt | buildReadExt | buildWritePage
      | buildWritePageAddr32 | buildPower | buildSetTime | buildByteCount | buildClear =>
    exact exec_completes_of_isBuilderOp rfl s
  all_goals exact exec_completes_of_frame rfl s

/-- A step refuses, or runs an instruction in a state with the same parser. -/
theorem ParserInv.step_ne_fault (h : ParserInv s) (r : Fault) : step s ≠ .fault r := by
  intro hr
  cases hp : s.pendingOps with
  | nil => cases (step_of_noPending hp).symm.trans hr
  | cons op rest =>
    cases hd : decodeOp op with
    | error e => cases (step_of_error hp hd).symm.trans hr
    | ok i =>
      have htaken : ParserInv (takeOperation s rest) := h.of_sameRx ⟨rfl, rfl, rfl, rfl⟩
      obtain ⟨t, ht⟩ := htaken.exec_completes i
      cases ((step_of_decode hp hd).trans ht).symm.trans hr

/-- Settles O58: the clauses about the parser are all of the invariant that it needs. -/
theorem nothingFaultsUnderTheInvariant : Obligations.NothingFaultsUnderTheInvariant := by
  unfold Obligations.NothingFaultsUnderTheInvariant
  exact ⟨fun i s h => h.parser.exec_completes i, fun s r h => h.parser.step_ne_fault r⟩

/-! ## Who writes each status and flag -/

/-- A flag that is as before is not newly set. -/
theorem not_set_of_eq {x y : Bool} {P : Prop} (h : y = x) (hy : y = true) (hx : x = false) : P :=
  nomatch hy.symm.trans (h.trans hx)

/-- A flag that is as before is not newly cleared. -/
theorem not_cleared_of_eq {x y : Bool} {P : Prop} (h : y = x) (hy : y = false) (hx : x = true) : P :=
  nomatch hy.symm.trans (h.trans hx)

theorem rxComplete_congr (h : t.rxState = s.rxState) : rxComplete t = rxComplete s := by
  rw [rxComplete, rxComplete, h]

/-- FEED never leaves Complete (40_receive_parser.md R112). -/
theorem rxComplete_of_feed {b : Byte} (h : exec (.feed b) s = .next t) (hs : rxComplete s = true) :
    rxComplete t = true := by
  obtain rfl := Host.Outcome.next.inj ((exec_feed_complete (of_decide_eq_true hs)).symm.trans h)
  exact hs

theorem ne_buildByteCount_of_setterOpcode (hi : setterOpcode i = some n) : i ≠ .buildByteCount := by
  rintro rfl
  cases hi

/-- Settles O60, by the shapes of the next state: each names its writer, and leaves the other statuses and
flags as they were. -/
theorem statusAndFlagsHaveTheirWriters : Obligations.StatusAndFlagsHaveTheirWriters := by
  unfold Obligations.StatusAndFlagsHaveTheirWriters
  intro i s t h
  cases exec_effect h with
  | @fed b _ h =>
    obtain ⟨⟨-, hpend, hrpg⟩, -, ⟨-, hvalid, -, hcmb⟩, -⟩ := onlyRx_of_feed h
    refine ⟨absurd hrpg, absurd hcmb, not_set_of_eq hpend, not_cleared_of_eq hpend, hvalid.trans,
      not_set_of_eq hvalid, fun _ _ => ⟨b, rfl⟩, fun hcleared hs => ?_⟩
    cases hcleared.symm.trans (rxComplete_of_feed h hs)
  | parserCleared => simp +contextual [rxComplete]
  | returned o hi => simp +contextual [rxComplete]
  | replyRefused hi he =>
    exact ⟨fun _ => hi, absurd rfl, not_set_of_eq rfl, not_cleared_of_eq rfl, id, not_set_of_eq rfl,
      not_set_of_eq rfl, not_cleared_of_eq rfl⟩
  | @replied _ n f a c d hr hf =>
    obtain ⟨hrx, -, -, -⟩ := armReply_sameRx n f a c d { s with txBuf := Memory.zero }
    obtain ⟨-, hvalid, -, hcmb⟩ := armReply_sameCmb n f a c d { s with txBuf := Memory.zero }
    exact ⟨fun _ => .inr hf.isReply, absurd hcmb, fun _ _ => hf.isReply, nofun, hvalid.trans,
      not_set_of_eq hvalid, not_set_of_eq (rxComplete_congr hrx), not_cleared_of_eq (rxComplete_congr hrx)⟩
  | replyTaken hp => simp +contextual [rxComplete]
  | commandBuilt => simp +contextual [rxComplete, isBuilderOp]
  | setterRefused hi he =>
    simp +contextual [rxComplete, isBuilderOp_of_setterOpcode hi, ne_buildByteCount_of_setterOpcode hi]
  | setterWrote hi ha hp =>
    simp +contextual [rxComplete, isBuilderOp_of_setterOpcode hi, ne_buildByteCount_of_setterOpcode hi]
  | commandCleared => simp +contextual [rxComplete, isBuilderOp]

end Sys2Proof.Machine
end
